-- ==== Sys2Proof/Config.lean ====
section
/-! DEFINITION. The configuration of `spec/00_scope.md` R6 (and the further tables of `93_implementation_defined.md` U7):
every value the spec fixes at construction or leaves OPEN. A `Config` is plain data and the state carries it, so that a
statement holds for every configuration it does not name (log entry 2). No step changes it. The spec's defaults are in
`Machine/Defaults.lean`. -/

namespace Sys2Proof

/-- The two chip variants of R2, selected once at construction. -/
inductive Variant where
  /-- `VAR_MONO`: the mono legacy accumulator. -/
  | mono
  /-- `VAR_STEREO`: the stereo panned accumulator with the bit-serial output stage. -/
  | stereo
deriving DecidableEq, Repr

/-- The logical operators of a channel (`10_state.md` R24, `44_timing_sequencer.md` R208). -/
inductive OpName where
  | op1 | op2 | op3 | op4
deriving DecidableEq, Repr

/-- One enable record of `FSM_TABLE` (`44_timing_sequencer.md` R204). -/
structure FsmRec where
  /-- `sel_op[0]`: operator-select pulse of position 0 (OP1). -/
  selOp0 : Bool
  /-- `sel_op[1]`: position 1 (OP3). -/
  selOp1 : Bool
  /-- `sel_op[2]`: position 2 (OP2). -/
  selOp2 : Bool
  /-- `sel_op[3]`: position 3 (OP4). -/
  selOp3 : Bool
  /-- `ch3_sel`: channel-3-special-select. -/
  ch3Sel : Bool
  /-- `eg_clock`: envelope-clock. -/
  egClock : Bool
  /-- `tmr_fine`: timer-clock, fine. -/
  tmrFine : Bool
  /-- `tmr_coarse`: timer-clock, coarse. -/
  tmrCoarse : Bool
  /-- `dac_load`. -/
  dacLoad : Bool
  /-- `dac_out_sel`. -/
  dacOutSel : Bool
  /-- `restart`. -/
  restart : Bool
  /-- `sh_load` (`VAR_STEREO`). -/
  shLoad : Bool
  /-- `sh_lr` (`VAR_STEREO`). -/
  shLr : Bool
  /-- `sh_wc` (`VAR_STEREO`). -/
  shWc : Bool
deriving DecidableEq, Repr

/-- A record with no pulse: what the table gives outside its 32 entries (log entry 18). -/
def FsmRec.idle : FsmRec :=
  { selOp0 := false, selOp1 := false, selOp2 := false, selOp3 := false, ch3Sel := false, egClock := false
    tmrFine := false, tmrCoarse := false, dacLoad := false, dacOutSel := false, restart := false
    shLoad := false, shLr := false, shWc := false }

/-- One row of the routing table (R208): the modulation sources of OP2, OP3, OP4 and the output taps of one
algorithm. OP1's input is always its own feedback, so it has no source list. -/
structure AlgRow where
  srcOp2 : List OpName
  srcOp3 : List OpName
  srcOp4 : List OpName
  taps : List OpName
deriving DecidableEq, Repr

/-- What an unconnected read path returns (`FLOAT_BUS`, `41_bus_front_end.md` R133, log entry 6). -/
inductive FloatBus where
  /-- The default of R133: the internal bus value of R126. -/
  | bus
  /-- A fixed fallback byte, the source's "fixed fallback value". -/
  | fixed (b : BitVec 8)
  /-- No evidence for any value (`93_implementation_defined.md` U4): the byte is the free value `Config.floatTap draw`, a draw
  fixed for a run. -/
  | unknown (draw : Nat)
deriving DecidableEq, Repr

/-- The configuration (`00_scope.md` R6, `93_implementation_defined.md` U6, U7). -/
structure Config where
  /-- `VARIANT`. -/
  variant : Variant
  /-- `PRESC_PERIOD[VAR_MONO]`: oscillator cycles per tick. -/
  prescMono : Nat
  /-- `PRESC_PERIOD[VAR_STEREO]`. -/
  prescStereo : Nat
  /-- `DCLK_PERIOD`: oscillator cycles per divided DAC clock period (`VAR_STEREO`). -/
  dclkPeriod : Nat
  /-- `RESET_DEBOUNCE_N`. -/
  resetDebounce : Nat
  /-- `BUSY_LEN`. -/
  busyLen : Nat
  /-- `EG_PRESCALE`. -/
  egPrescale : Nat
  /-- `DAC_WORD_BITS`. -/
  dacWordBits : Nat
  /-- `FLOAT_BUS`. -/
  floatBus : FloatBus
  /-- `FSM_TABLE[VAR_MONO]`, 32 records. -/
  fsmMono : List FsmRec
  /-- `FSM_TABLE[VAR_STEREO]`, 32 records. -/
  fsmStereo : List FsmRec
  /-- `LFO_PERIOD[0..7]`. -/
  lfoPeriod : List Nat
  /-- `FN_NOTE[0..15]`. -/
  fnNote : List Nat
  /-- `PM_SH1[0..7][0..7]`. -/
  pmSh1 : List (List Nat)
  /-- `PM_SH2[0..7][0..7]`. -/
  pmSh2 : List (List Nat)
  /-- `DETUNE_BASE[0..7]`. -/
  detuneBase : List Nat
  /-- `EG_STEPHI[0..3][0..3]`. -/
  egStepHi : List (List Nat)
  /-- `EG_AM_SHIFT[0..3]`. -/
  egAmShift : List Nat
  /-- `LOGSIN[0..255]`. -/
  logsin : List Nat
  /-- `EXPROM[0..255]`. -/
  exprom : List Nat
  /-- The routing table of R208, algorithms 0 to 7. -/
  routing : List AlgRow
deriving DecidableEq, Repr

end Sys2Proof
end

