-- ==== Sys2Proof/Machine/Defaults.lean ====
section
/-! DEFINITION. The default configuration of each variant (`spec/00_scope.md` R6 and the rules it names), and what a
configuration says of its own variant. -/

namespace Sys2Proof

namespace Config

/-! ### The default tables -/

/-- The channel in front at sequencer position `q`, for a non-gap position (R206). -/
def frontChanAt (q : Nat) : Nat := 3 * (q / 4 % 2) + q % 4

/-- The default record of `VAR_MONO` at position `q` (R206). -/
def monoRec (q : Nat) : FsmRec :=
  { selOp0 := q / 8 == 0, selOp1 := q / 8 == 1, selOp2 := q / 8 == 2, selOp3 := q / 8 == 3
    ch3Sel := q % 8 == 2, restart := q == 31, tmrFine := q == 3, tmrCoarse := q == 7, egClock := q == 31
    dacLoad := q % 4 != 3, dacOutSel := q % 8 == 6, shLoad := false, shLr := false, shWc := false }

/-- The default record of `VAR_STEREO` at position `q` (R206). -/
def stereoRec (q : Nat) : FsmRec :=
  { selOp0 := q / 8 == 0, selOp1 := q / 8 == 1, selOp2 := q / 8 == 2, selOp3 := q / 8 == 3
    ch3Sel := q % 8 == 2, restart := q == 31, tmrFine := q == 7, tmrCoarse := q == 3, egClock := q == 27
    dacLoad := q == 7, dacOutSel := q == 6, shLoad := q == 8, shLr := decide (8 ≤ q) && decide (q ≤ 23)
    shWc := q == 8 || q == 24 }

/-- The values `f 0, …, f (n-1)`. -/
def tabulate {α : Type} (f : Nat → α) : Nat → List α
  | 0 => []
  | n + 1 => tabulate f n ++ [f n]

/-- `LFO_PERIOD` (`45_lfo.md` R226). -/
def defaultLfoPeriod : List Nat := [108, 77, 71, 67, 62, 44, 8, 5]

/-- `FN_NOTE` (`46_phase_generator.md` R232). -/
def defaultFnNote : List Nat := [0, 0, 0, 0, 0, 0, 0, 1, 2, 3, 3, 3, 3, 3, 3, 3]

/-- `PM_SH1` (`46_phase_generator.md` R236). -/
def defaultPmSh1 : List (List Nat) :=
  [[7, 7, 7, 7, 7, 7, 7, 7], [7, 7, 7, 7, 7, 7, 7, 7], [7, 7, 7, 7, 7, 7, 1, 1], [7, 7, 7, 7, 1, 1, 1, 1],
   [7, 7, 7, 1, 1, 1, 1, 0], [7, 7, 1, 1, 0, 0, 0, 0], [7, 7, 1, 1, 0, 0, 0, 0], [7, 7, 1, 1, 0, 0, 0, 0]]

/-- `PM_SH2` (`46_phase_generator.md` R236). -/
def defaultPmSh2 : List (List Nat) :=
  [[7, 7, 7, 7, 7, 7, 7, 7], [7, 7, 7, 7, 2, 2, 2, 2], [7, 7, 7, 2, 2, 2, 7, 7], [7, 7, 2, 2, 7, 7, 2, 2],
   [7, 7, 2, 7, 7, 7, 2, 7], [7, 7, 7, 2, 7, 7, 2, 1], [7, 7, 7, 2, 7, 7, 2, 1], [7, 7, 7, 2, 7, 7, 2, 1]]

/-- `DETUNE_BASE` (`46_phase_generator.md` R238). -/
def defaultDetuneBase : List Nat := [16, 17, 19, 20, 22, 24, 27, 29]

/-- `EG_STEPHI` (`47_envelope_generator.md` R264). -/
def defaultEgStepHi : List (List Nat) := [[0, 0, 0, 0], [1, 0, 0, 0], [1, 0, 1, 0], [1, 1, 1, 0]]

/-- `EG_AM_SHIFT` (`47_envelope_generator.md` R278). -/
def defaultEgAmShift : List Nat := [7, 3, 1, 0]

/-- `LOGSIN` (`48_operator_network.md` R292, section 4). -/
def defaultLogsin : List Nat :=
  [2137, 1731, 1543, 1419, 1326, 1252, 1190, 1137, 1091, 1050, 1013, 979, 949, 920, 894, 869] ++
  [846, 825, 804, 785, 767, 749, 732, 717, 701, 687, 672, 659, 646, 633, 621, 609] ++
  [598, 587, 576, 566, 556, 546, 536, 527, 518, 509, 501, 492, 484, 476, 468, 461] ++
  [453, 446, 439, 432, 425, 418, 411, 405, 399, 392, 386, 380, 375, 369, 363, 358] ++
  [352, 347, 341, 336, 331, 326, 321, 316, 311, 307, 302, 297, 293, 289, 284, 280] ++
  [276, 271, 267, 263, 259, 255, 251, 248, 244, 240, 236, 233, 229, 226, 222, 219] ++
  [215, 212, 209, 205, 202, 199, 196, 193, 190, 187, 184, 181, 178, 175, 172, 169] ++
  [167, 164, 161, 159, 156, 153, 151, 148, 146, 143, 141, 138, 136, 134, 131, 129] ++
  [127, 125, 122, 120, 118, 116, 114, 112, 110, 108, 106, 104, 102, 100, 98, 96] ++
  [94, 92, 91, 89, 87, 85, 83, 82, 80, 78, 77, 75, 74, 72, 70, 69] ++
  [67, 66, 64, 63, 62, 60, 59, 57, 56, 55, 53, 52, 51, 49, 48, 47] ++
  [46, 45, 43, 42, 41, 40, 39, 38, 37, 36, 35, 34, 33, 32, 31, 30] ++
  [29, 28, 27, 26, 25, 24, 23, 23, 22, 21, 20, 20, 19, 18, 17, 17] ++
  [16, 15, 15, 14, 13, 13, 12, 12, 11, 10, 10, 9, 9, 8, 8, 7] ++
  [7, 7, 6, 6, 5, 5, 5, 4, 4, 4, 3, 3, 3, 2, 2, 2] ++
  [2, 1, 1, 1, 1, 1, 1, 1, 0, 0, 0, 0, 0, 0, 0, 0]

/-- `EXPROM` (`48_operator_network.md` R293, section 4). -/
def defaultExprom : List Nat :=
  [0, 3, 6, 8, 11, 14, 17, 20, 22, 25, 28, 31, 34, 37, 40, 42] ++
  [45, 48, 51, 54, 57, 60, 63, 66, 69, 72, 75, 78, 81, 84, 87, 90] ++
  [93, 96, 99, 102, 105, 108, 111, 114, 117, 120, 123, 126, 130, 133, 136, 139] ++
  [142, 145, 148, 152, 155, 158, 161, 164, 168, 171, 174, 177, 181, 184, 187, 190] ++
  [194, 197, 200, 204, 207, 210, 214, 217, 220, 224, 227, 231, 234, 237, 241, 244] ++
  [248, 251, 255, 258, 262, 265, 268, 272, 276, 279, 283, 286, 290, 293, 297, 300] ++
  [304, 308, 311, 315, 318, 322, 326, 329, 333, 337, 340, 344, 348, 352, 355, 359] ++
  [363, 367, 370, 374, 378, 382, 385, 389, 393, 397, 401, 405, 409, 412, 416, 420] ++
  [424, 428, 432, 436, 440, 444, 448, 452, 456, 460, 464, 468, 472, 476, 480, 484] ++
  [488, 492, 496, 501, 505, 509, 513, 517, 521, 526, 530, 534, 538, 542, 547, 551] ++
  [555, 560, 564, 568, 572, 577, 581, 585, 590, 594, 599, 603, 607, 612, 616, 621] ++
  [625, 630, 634, 639, 643, 648, 652, 657, 661, 666, 670, 675, 680, 684, 689, 693] ++
  [698, 703, 708, 712, 717, 722, 726, 731, 736, 741, 745, 750, 755, 760, 765, 770] ++
  [774, 779, 784, 789, 794, 799, 804, 809, 814, 819, 824, 829, 834, 839, 844, 849] ++
  [854, 859, 864, 869, 874, 880, 885, 890, 895, 900, 906, 911, 916, 921, 927, 932] ++
  [937, 942, 948, 953, 959, 964, 969, 975, 980, 986, 991, 996, 1002, 1007, 1013, 1018]

/-- The routing table (`44_timing_sequencer.md` R208). -/
def defaultRouting : List AlgRow :=
  [{ srcOp2 := [.op1], srcOp3 := [.op2], srcOp4 := [.op3], taps := [.op4] },
   { srcOp2 := [], srcOp3 := [.op1, .op2], srcOp4 := [.op3], taps := [.op4] },
   { srcOp2 := [], srcOp3 := [.op2], srcOp4 := [.op1, .op3], taps := [.op4] },
   { srcOp2 := [.op1], srcOp3 := [], srcOp4 := [.op2, .op3], taps := [.op4] },
   { srcOp2 := [.op1], srcOp3 := [], srcOp4 := [.op3], taps := [.op2, .op4] },
   { srcOp2 := [.op1], srcOp3 := [.op1], srcOp4 := [.op1], taps := [.op2, .op3, .op4] },
   { srcOp2 := [.op1], srcOp3 := [], srcOp4 := [], taps := [.op2, .op3, .op4] },
   { srcOp2 := [], srcOp3 := [], srcOp4 := [], taps := [.op1, .op2, .op3, .op4] }]

/-- The defaults of R6 for `VAR_MONO`, the configuration of the test vectors. -/
def mono : Config :=
  { variant := .mono, prescMono := 6, prescStereo := 6, dclkPeriod := 6, resetDebounce := 4, busyLen := 32
    egPrescale := 3, dacWordBits := 16, floatBus := .bus
    fsmMono := tabulate monoRec 32, fsmStereo := tabulate stereoRec 32
    lfoPeriod := defaultLfoPeriod, fnNote := defaultFnNote, pmSh1 := defaultPmSh1, pmSh2 := defaultPmSh2
    detuneBase := defaultDetuneBase, egStepHi := defaultEgStepHi, egAmShift := defaultEgAmShift
    logsin := defaultLogsin, exprom := defaultExprom, routing := defaultRouting }

/-- The defaults of R6 for `VAR_STEREO`. -/
def stereo : Config := { mono with variant := .stereo }

/-! ### Reading a configuration -/

/-- `PRESC_PERIOD[VARIANT]` (R105). -/
def prescPeriod (c : Config) : Nat :=
  match c.variant with
  | .mono => c.prescMono
  | .stereo => c.prescStereo

/-- `FSM_TABLE[VARIANT]` (R204). -/
def fsmTable (c : Config) : List FsmRec :=
  match c.variant with
  | .mono => c.fsmMono
  | .stereo => c.fsmStereo

/-- `W_ACC` (`10_state.md` R36): the accumulator width of the variant. -/
def accBits (c : Config) : Nat :=
  match c.variant with
  | .mono => 9
  | .stereo => 14

end Config

end Sys2Proof
end

