-- ==== Sys2Proof/Word.lean ====
section
/-! DEFINITION. The byte of the bus. Every other width of the machine is written where it stands, as `BitVec n`
(`spec/00_scope.md` R7: bits are numbered from 0 at the least significant end). -/

namespace Sys2Proof

/-- One byte of the 8-bit data bus (`20_memory.md` R60, R65). -/
abbrev Byte := BitVec 8

end Sys2Proof
end

