-- ==== Sys2Proof/Machine/State.lean ====
section
/-! DEFINITION. The state (`spec/10_state.md`), as plain data. A pair `X` of `00_scope.md` R8 is the field `X` of the record
`Regs`, which the state holds twice: `nxt` is every `X.next`, `cur` every `X.cur`. The raw latches of R22, R26 and R36 are the
record `Raw`. `cfg`, `pins`, `host` and `out` are the model's own fields: the configuration, the input record in force, the
input records to come, the output record of the last step. -/

namespace Sys2Proof.Machine

/-- The input record of one oscillator sample (`20_memory.md` R60); every 1-bit input is logical, 1 = asserted. -/
structure Pins where
  /-- `chip_select`. -/
  cs : Bool
  /-- `read_enable`. -/
  rd : Bool
  /-- `write_enable`. -/
  wr : Bool
  /-- `address`. -/
  address : BitVec 2
  /-- `data`, the value the host drives. -/
  data : BitVec 8
  /-- `reset`, a level. -/
  reset : Bool
  /-- `test`, read by no rule (log entry 7). -/
  test : Bool
  /-- `clock`, the oscillator level. -/
  clock : Bool
deriving DecidableEq, Repr

/-- The variant's sample outputs (R61, `49_accumulator_dac.md` R320, R322). -/
inductive Audio where
  /-- `VAR_MONO`: `sample`, 9 bits signed. -/
  | mono (sample : Int)
  /-- `VAR_STEREO`: `serial_out`, `word_clock`, `left_right_clock`, `bit_clock`. -/
  | stereo (serialOut wordClock leftRightClock bitClock : Bool)
deriving DecidableEq, Repr

/-- The output record of one oscillator sample (`20_memory.md` R61). -/
structure Out where
  dataOut : BitVec 8
  dataOutEn : Bool
  audio : Audio
deriving DecidableEq, Repr

/-- The raw latches, written at oscillator-sample granularity (`10_state.md` R20, R22, R26, R36). -/
structure Raw where
  /-- The two most recent samples of `clock`, bit 0 the newer. -/
  oscHist : BitVec 2
  /-- `0 .. PRESC_PERIOD-1`. -/
  prescCnt : Nat
  /-- `0 .. DCLK_PERIOD-1`, `VAR_STEREO` only. -/
  dclkCnt : Nat
  dataLatch : BitVec 8
  bankLatch : BitVec 1
  waPrev : Bool
  wdPrev : Bool
  waPend : Bool
  wdPend : Bool
  /-- `2*DAC_WORD_BITS` bits, `VAR_STEREO` only. -/
  dacSr : Nat
  so : Bool
  wc : Bool
  lrc : Bool
  bck : Bool
deriving DecidableEq, Repr

/-- The reset pairs (R23). -/
structure RstRegs where
  ic : Bool
  /-- `RESET_DEBOUNCE_N` bits, newest sample in bit 0. -/
  rstSr : Nat
deriving DecidableEq, Repr

/-- The scan position and the sequencer counter (R25). -/
structure ScanRegs where
  regCnt1 : BitVec 2
  regCnt2 : BitVec 3
  fsmCnt1 : BitVec 2
  fsmCnt2 : BitVec 3
deriving DecidableEq, Repr

/-- The clocked half of the bus front end (R27). -/
structure BusRegs where
  waEn : Bool
  wdEn : Bool
  regAddr : BitVec 8
  regBank : BitVec 1
  regData : BitVec 8
  dataValid : Bool
  /-- `0 .. BUSY_LEN`. -/
  busyCnt : Nat
deriving DecidableEq, Repr

/-- The global mode registers (R28). -/
structure GlobRegs where
  test21 : BitVec 8
  lfoEn : Bool
  lfoFreq : BitVec 3
  taReload : BitVec 10
  tbReload : BitVec 8
  ch3Mode : BitVec 2
  tbEnable : Bool
  taEnable : Bool
  tbLoad : Bool
  taLoad : Bool
  tbReset : Bool
  taReset : Bool
  konOp : BitVec 4
  konCh : BitVec 3
  dacData : BitVec 8
  dacEn : Bool
  test2c : BitVec 8
deriving DecidableEq, Repr

/-- The operator-slot register file (R29). -/
structure SlotRegs where
  dt : Vector (BitVec 3) 24
  mul : Vector (BitVec 4) 24
  tl : Vector (BitVec 7) 24
  ks : Vector (BitVec 2) 24
  ar : Vector (BitVec 5) 24
  am : Vector Bool 24
  dr : Vector (BitVec 5) 24
  sr : Vector (BitVec 5) 24
  sl : Vector (BitVec 4) 24
  rr : Vector (BitVec 4) 24
  ssg : Vector (BitVec 4) 24
deriving DecidableEq, Repr

/-- The channel register file (R30). -/
structure ChanRegs where
  fnum : Vector (BitVec 11) 6
  block : Vector (BitVec 3) 6
  fhiLatch : BitVec 6
  fnum3 : Vector (BitVec 11) 3
  block3 : Vector (BitVec 3) 3
  fhi3Latch : BitVec 6
  fb : Vector (BitVec 3) 6
  alg : Vector (BitVec 3) 6
  panL : Vector Bool 6
  panR : Vector Bool 6
  ams : Vector (BitVec 2) 6
  pms : Vector (BitVec 3) 6
deriving DecidableEq, Repr

/-- The key state (R31). -/
structure KeyRegs where
  konReg : Vector Bool 24
  konLatch : Vector Bool 24
  konPrev : Vector Bool 24
  konCsm : Vector Bool 24
  csmReq : Bool
  csmKon : Bool
deriving DecidableEq, Repr

/-- The 2-bit ADSR phase code (R32, `47_envelope_generator.md` R251). -/
inductive EgState where
  /-- Code 0. -/
  | attack
  /-- Code 1. -/
  | decay
  /-- Code 2. -/
  | sustain
  /-- Code 3. -/
  | release
deriving DecidableEq, Repr

/-- The envelope generator (R32). -/
structure EgRegs where
  level : Vector (BitVec 10) 24
  state : Vector EgState 24
  out : Vector (BitVec 10) 24
  ssgDir : Vector Bool 24
  ssgInv : Vector Bool 24
  ssgPgrst : Vector Bool 24
  ssgRepeat : Vector Bool 24
  ssgHoldup : Vector Bool 24
  /-- `0 .. EG_PRESCALE-1`. -/
  quot : BitVec 2
  timer : BitVec 12
  shiftLock : BitVec 4
  lowLock : BitVec 2
deriving DecidableEq, Repr

/-- The phase generator (R33). -/
structure PgRegs where
  phase : Vector (BitVec 20) 24
  inc : Vector (BitVec 20) 24
  reset : Vector Bool 24
deriving DecidableEq, Repr

/-- The LFO (R34). -/
structure LfoRegs where
  quot : BitVec 7
  cnt : BitVec 7
  wrap : Bool
  out : BitVec 7
deriving DecidableEq, Repr

/-- The operator network (R35); the two arrays are two's-complement values. -/
structure OpRegs where
  opOut : Vector (BitVec 14) 24
  op1Prev : Vector (BitVec 14) 6
  modIn : BitVec 10
deriving DecidableEq, Repr

/-- The accumulator and output pairs (R36); the signed values are integers, since their width depends on the
configuration (log entry 13). -/
structure AccRegs where
  chAcc : Vector Int 6
  chOut : Vector Int 6
  monoOut : Int
  mixL : Int
  mixR : Int
  dacWord : Nat
deriving DecidableEq, Repr

/-- The timers (R37). -/
structure TimerRegs where
  taCnt : BitVec 10
  taLoadLock : Bool
  taLoadLatch : Bool
  taOvf : Bool
  taFlag : Bool
  tbCnt : BitVec 8
  tbSub : BitVec 4
  tbLoadLock : Bool
  tbLoadLatch : Bool
  tbOvf : Bool
  tbFlag : Bool
deriving DecidableEq, Repr

/-- One half of every pair of the machine. -/
structure Regs where
  rst : RstRegs
  scan : ScanRegs
  bus : BusRegs
  glob : GlobRegs
  slot : SlotRegs
  chan : ChanRegs
  key : KeyRegs
  eg : EgRegs
  pg : PgRegs
  lfo : LfoRegs
  op : OpRegs
  acc : AccRegs
  tmr : TimerRegs
deriving DecidableEq, Repr

/-- The state of the machine: the configuration, the raw latches, the two halves of every pair, and the model's own record
of what the host drives and sees. -/
structure State where
  /-- The configuration (model's own field; never changed by a step). -/
  cfg : Config
  /-- The raw latches. -/
  raw : Raw
  /-- Every `X.cur`. -/
  cur : Regs
  /-- Every `X.next`. -/
  nxt : Regs
  /-- The input record of the current sample (model's own field). -/
  pins : Pins
  /-- The input records the host has yet to drive (model's own field). -/
  host : List Pins
  /-- The output record of the last step (model's own field). -/
  out : Out
deriving DecidableEq, Repr

/-- Why the machine stops with a fault: never. The type has no constructor, because no bus operation and no register write
raises anything (`60_exceptions.md` R330). -/
inductive Fault where
deriving DecidableEq, Repr

/-- Why the model has no meaning for an instruction. -/
inductive Refusal where
  /-- Raised by an arm of `exec` for an instruction that has no meaning yet (safe: nothing can be proved of it). No arm of
  this model raises it. -/
  | notModelled (mnemonic : String)
deriving DecidableEq, Repr

/-! ### Reset values -/

/-- The reset value of every pair: the "reset" column of `10_state.md` (R21, R360); `ic` and `rst_sr` as at creation. -/
def Regs.reset : Regs :=
  { rst := { ic := false, rstSr := 0 }
    scan := { regCnt1 := 0, regCnt2 := 0, fsmCnt1 := 0, fsmCnt2 := 0 }
    bus := { waEn := false, wdEn := false, regAddr := 0, regBank := 0, regData := 0, dataValid := false, busyCnt := 0 }
    glob :=
      { test21 := 0, lfoEn := false, lfoFreq := 0, taReload := 0, tbReload := 0, ch3Mode := 0, tbEnable := false
        taEnable := false, tbLoad := false, taLoad := false, tbReset := false, taReset := false, konOp := 0, konCh := 0
        dacData := 0, dacEn := false, test2c := 0 }
    slot :=
      { dt := .replicate 24 0, mul := .replicate 24 0, tl := .replicate 24 0, ks := .replicate 24 0, ar := .replicate 24 0
        am := .replicate 24 false, dr := .replicate 24 0, sr := .replicate 24 0, sl := .replicate 24 0
        rr := .replicate 24 0, ssg := .replicate 24 0 }
    chan :=
      { fnum := .replicate 6 0, block := .replicate 6 0, fhiLatch := 0, fnum3 := .replicate 3 0, block3 := .replicate 3 0
        fhi3Latch := 0, fb := .replicate 6 0, alg := .replicate 6 0, panL := .replicate 6 false
        panR := .replicate 6 false, ams := .replicate 6 0, pms := .replicate 6 0 }
    key :=
      { konReg := .replicate 24 false, konLatch := .replicate 24 false, konPrev := .replicate 24 false
        konCsm := .replicate 24 false, csmReq := false, csmKon := false }
    eg :=
      { level := .replicate 24 0x3FF, state := .replicate 24 .release, out := .replicate 24 0x3FF
        ssgDir := .replicate 24 false, ssgInv := .replicate 24 false, ssgPgrst := .replicate 24 false
        ssgRepeat := .replicate 24 false, ssgHoldup := .replicate 24 false, quot := 0, timer := 0, shiftLock := 0
        lowLock := 0 }
    pg := { phase := .replicate 24 0, inc := .replicate 24 0, reset := .replicate 24 false }
    lfo := { quot := 0, cnt := 0, wrap := false, out := 0 }
    op := { opOut := .replicate 24 0, op1Prev := .replicate 6 0, modIn := 0 }
    acc := { chAcc := .replicate 6 0, chOut := .replicate 6 0, monoOut := 0, mixL := 0, mixR := 0, dacWord := 0 }
    tmr :=
      { taCnt := 0, taLoadLock := false, taLoadLatch := false, taOvf := false, taFlag := false, tbCnt := 0, tbSub := 0
        tbLoadLock := false, tbLoadLatch := false, tbOvf := false, tbFlag := false } }

/-- The raw latches at creation (R21, R22, R26, R36). -/
def Raw.reset : Raw :=
  { oscHist := 0, prescCnt := 0, dclkCnt := 0, dataLatch := 0, bankLatch := 0, waPrev := false, wdPrev := false
    waPend := false, wdPend := false, dacSr := 0, so := false, wc := false, lrc := false, bck := false }

/-- An idle bus at clock level `clock`: nothing selected, `reset` and `test` not asserted. -/
def Pins.idle (clock : Bool) : Pins :=
  { cs := false, rd := false, wr := false, address := 0, data := 0, reset := false, test := false, clock := clock }

/-- The created machine of configuration `c` (R21): every field at its reset value, in both halves of a pair, nothing
driven by the host, the outputs those of the idle state. -/
def State.created (c : Config) : State :=
  { cfg := c, raw := Raw.reset, cur := Regs.reset, nxt := Regs.reset, pins := Pins.idle false, host := []
    out :=
      { dataOut := 0, dataOutEn := false
        audio := match c.variant with
          | .mono => .mono 0
          | .stereo => .stereo false false false false } }

/-- The machine right after reset (R21, R362): the created state under the default configuration of `VAR_MONO`
(log entries 2 and 20). -/
def State.reset : State := State.created Config.mono

end Sys2Proof.Machine

namespace Sys2Proof.Config

/-- `TEST_TAP` (`00_scope.md` R6, `41_bus_front_end.md` R130): the byte a status read returns in test-read mode, a function
of the `cur` halves the spec gives no value of. They change at a commit only, so two reads with no tick between them answer
the same byte (`20_memory.md` R67). A free value: nothing else can be proved of it (log entry 5). -/
opaque testTap : Machine.Regs → BitVec 8

/-- The byte of an unconnected read path under `FloatBus.unknown` (`93_implementation_defined.md` U4), fixed for a run by the
configuration. A free value (log entry 6). -/
opaque floatTap : Nat → BitVec 8

/-- The sample `VAR_MONO` loads in a tick of `dac_load` at a gap position, where R317 has no front channel to show. A free
value (log entry 9). -/
opaque gapSample : Machine.Regs → BitVec 9

end Sys2Proof.Config
end

