-- ==== Sys2Proof/Machine/Ops.lean ====
section
/-! DEFINITION. The named operations over the state: exact arithmetic and its narrowing (`00_scope.md` R7, R12), slot and
channel numbering (`10_state.md` R24), the pin-side latches (`41_bus_front_end.md` R121 to R126), the writes of `next` halves,
the commit (R9) and the reset forcing (`70_reset_and_hazards.md` R360). There is no operation that takes an exception or
returns from one, because the spec says there is none (`60_exceptions.md` R330 to R333). -/

namespace Sys2Proof.Machine

/-! ### Arithmetic -/

/-- `satS_W(v)`: a signed integer clamped to `-2^(W-1) .. 2^(W-1)-1` (R12). -/
def satS (w : Nat) (v : Int) : Int :=
  if v < -(2 ^ (w - 1)) then -(2 ^ (w - 1)) else if 2 ^ (w - 1) - 1 < v then 2 ^ (w - 1) - 1 else v

/-- `satU_W(v)`: a non-negative integer clamped to `0 .. 2^W-1` (R12). -/
def satU (w : Nat) (v : Nat) : Nat := min v (2 ^ w - 1)

/-- `asr(a, n) = floor(a / 2^n)` on a signed value (R7). -/
def asr (a : Int) (n : Nat) : Int := a / 2 ^ n

/-- A bit as a number. -/
def bit (b : Bool) : Nat := if b then 1 else 0

/-- A signed value read as `w` bits (`v mod 2^w`). -/
def wrap (w : Nat) (v : Int) : Nat := (v % 2 ^ w).toNat

/-- The number of trailing zero bits of the low `n` bits of `x`, `n` if they are all 0 (`ctz` of R255). -/
def ctz : Nat → Nat → Nat
  | 0, _ => 0
  | n + 1, x => if x % 2 = 1 then 0 else ctz n (x / 2) + 1

/-- Entry `i` of a configuration table; 0 outside it (log entry 18). -/
def entry (t : List Nat) (i : Nat) : Nat := t.getD i 0

/-- Entry `j` of row `i` of a two-dimensional configuration table; 0 outside it. -/
def entry2 (t : List (List Nat)) (i j : Nat) : Nat := entry (t.getD i []) j

/-- Write element `i` of a register file; the others hold (R10). -/
def setAt {α : Type} {n : Nat} (v : Vector α n) (i : Fin n) (a : α) : Vector α n := v.set i.val a i.isLt

/-! ### Slots and channels (R24) -/

/-- `chan(s) = s mod 6`. -/
def chanOf (s : Fin 24) : Fin 6 := ⟨s.val % 6, by omega⟩

/-- `pos(s) = s div 6`. -/
def posOf (s : Fin 24) : Fin 4 := ⟨s.val / 6, by omega⟩

/-- The slot of position `p` of channel `c`: `s = 6*pos + chan`. -/
def slotOf (p : Fin 4) (c : Fin 6) : Fin 24 := ⟨6 * p.val + c.val, by omega⟩

/-- `opname(p)`: positions 0, 1, 2, 3 are OP1, OP3, OP2, OP4. -/
def opName (p : Fin 4) : OpName :=
  match p.val with
  | 0 => .op1
  | 1 => .op3
  | 2 => .op2
  | _ => .op4

/-- `chan_at(cnt2, cnt1)`: the channel at a scan position, none at a gap. -/
def chanAt (cnt2 : BitVec 3) (cnt1 : BitVec 2) : Option (Fin 6) :=
  if h : cnt1.toNat < 3 then some ⟨3 * (cnt2.toNat % 2) + cnt1.toNat, by omega⟩ else none

/-- `slot_at(cnt2, cnt1)`: the slot at a scan position, none at a gap. -/
def slotAt (cnt2 : BitVec 3) (cnt1 : BitVec 2) : Option (Fin 24) :=
  if h : cnt1.toNat < 3 then
    some ⟨6 * (cnt2.toNat / 2) + 3 * (cnt2.toNat % 2) + cnt1.toNat, by have := cnt2.isLt; omega⟩
  else none

/-- The slot at scan position `p5 = 4*cnt2 + cnt1`, taken mod 32. -/
def slotAtPos (p5 : Nat) : Option (Fin 24) := slotAt (BitVec.ofNat 3 (p5 / 4)) (BitVec.ofNat 2 p5)

/-- The channel a register write targets, `3*bank + cib`; none for `cib = 3` (`30_encoding.md` R83). -/
def targetChan (bank : BitVec 1) (cib : BitVec 2) : Option (Fin 6) :=
  if h : cib.toNat < 3 then some ⟨3 * bank.toNat + cib.toNat, by have := bank.isLt; omega⟩ else none

/-- The slot an operator register write targets, `6*sub + chan`; none for `cib = 3` (R83). -/
def targetSlot (bank : BitVec 1) (pos cib : BitVec 2) : Option (Fin 24) :=
  if h : cib.toNat < 3 then
    some ⟨6 * pos.toNat + (3 * bank.toNat + cib.toNat), by have := bank.isLt; have := pos.isLt; omega⟩
  else none

/-- The special-channel frequency set a write targets, `cib`; none for `cib = 3` (R183). -/
def targetSet (cib : BitVec 2) : Option (Fin 3) := if h : cib.toNat < 3 then some ⟨cib.toNat, h⟩ else none

namespace Regs

/-- `pos5 = 4*reg_cnt2 + reg_cnt1` (R25). -/
def pos5 (r : Regs) : Nat := 4 * r.scan.regCnt2.toNat + r.scan.regCnt1.toNat

/-- `q = 4*fsm_cnt2 + fsm_cnt1` (R25). -/
def q (r : Regs) : Nat := 4 * r.scan.fsmCnt2.toNat + r.scan.fsmCnt1.toNat

/-- The front slot of the tick (`42_register_scan.md` R141). -/
def frontSlot (r : Regs) : Option (Fin 24) := slotAt r.scan.regCnt2 r.scan.regCnt1

/-- The front channel of the tick (R141). -/
def frontChan (r : Regs) : Option (Fin 6) := chanAt r.scan.regCnt2 r.scan.regCnt1

end Regs

namespace State

/-- `bus`, the internal data bus (`41_bus_front_end.md` R126): 0 in reset, else the latched data byte. -/
def bus (s : State) : Byte := if s.cur.rst.ic then 0 else s.raw.dataLatch

/-- The pin-side half of a bus operation (R121 to R124): `wa`, `wd` are its write strobes `io_wa`, `io_wd`. -/
def pinSide (s : State) (wa wd : Bool) (bank : BitVec 1) (data : Byte) : State :=
  { s with
    raw :=
      if s.cur.rst.ic then
        { s.raw with dataLatch := 0, bankLatch := 0, waPend := false, wdPend := false, waPrev := wa, wdPrev := wd }
      else
        { s.raw with
          dataLatch := if wa || wd then data else s.raw.dataLatch
          bankLatch := if wa then bank else s.raw.bankLatch
          waPend := s.raw.waPend || (wa && !s.raw.waPrev)
          wdPend := s.raw.wdPend || (wd && !s.raw.wdPrev)
          waPrev := wa
          wdPrev := wd } }

/-- Write the `next` halves of the global mode registers. -/
def setGlob (s : State) (g : GlobRegs) : State := { s with nxt := { s.nxt with glob := g } }

/-- Write the `next` halves of the channel file. -/
def setChan (s : State) (g : ChanRegs) : State := { s with nxt := { s.nxt with chan := g } }

/-- Write fields of one slot of the operator-slot file (`next` halves); `none` selects nothing. -/
def writeSlot (s : State) (target : Option (Fin 24)) (f : Fin 24 → SlotRegs → SlotRegs) : State :=
  match target with
  | some k => { s with nxt := { s.nxt with slot := f k s.nxt.slot } }
  | none => s

/-- Write fields of one channel of the channel file (`next` halves); `none` selects nothing. -/
def writeChan {n : Nat} (s : State) (target : Option (Fin n)) (f : Fin n → ChanRegs → ChanRegs) : State :=
  match target with
  | some k => s.setChan (f k s.nxt.chan)
  | none => s

/-- The phase-2 commit of R9: every pair at once. -/
def commit (s : State) : State := { s with cur := s.nxt }

/-- The forcing of R360 at phase 1 of a tick with `ic.cur = 1`: every `next` gets its reset value but those of `ic`,
`rst_sr` and the four counters. -/
def forceReset (s : State) : State :=
  if s.cur.rst.ic then { s with nxt := { Regs.reset with rst := s.nxt.rst, scan := s.nxt.scan } } else s

end State

end Sys2Proof.Machine
end

