-- ==== Sys2Proof/Machine/Flags.lean ====
section
/-! DEFINITION. The flags of this hardware: busy and the two timer flags (`10_state.md` R37), the status byte they form
(`41_bus_front_end.md` R129), and the named wires over the test registers (R130) and the reset synchroniser
(`40_clock_prescaler.md` R110). -/

namespace Sys2Proof.Machine

namespace Regs

/-- The busy flag (R128). -/
def busy (r : Regs) : Bool := r.bus.busyCnt != 0

/-- The status byte `{busy, 0, 0, 0, 0, 0, tb_flag, ta_flag}`, bit 7 down to bit 0; 0x00 during reset (R129), that is while
`ic.cur = 1` (`10_state.md` R23). -/
def status (r : Regs) : Byte :=
  if r.rst.ic then 0
  else BitVec.ofBool r.busy ++ ((0 : BitVec 5) ++ (BitVec.ofBool r.tmr.tbFlag ++ BitVec.ofBool r.tmr.taFlag))

/-- `t_lfo_hold = test21[1]` (R130). -/
def tLfoHold (r : Regs) : Bool := r.glob.test21.getLsbD 1

/-- `t_read_sel = test21[6]` (R130). -/
def tReadSel (r : Regs) : Bool := r.glob.test21.getLsbD 6

/-- `t_dac_lsb = test2c[3]` (R130). -/
def tDacLsb (r : Regs) : Bool := r.glob.test2c.getLsbD 3

/-- `t_dac_all = test2c[5]`: a name without effect (R130, `92_eei_decisions.md` D17). -/
def tDacAll (r : Regs) : Bool := r.glob.test2c.getLsbD 5

end Regs

/-- `fsm_reset` (R110): the reset pin was sampled asserted at each of the last `RESET_DEBOUNCE_N` phase-1 events. -/
def fsmReset (c : Config) (r : Regs) : Bool := r.rst.rstSr == 2 ^ c.resetDebounce - 1

end Sys2Proof.Machine
end

