-- ==== Sys2Proof/Machine/BusOps.lean ====
section
/-! DEFINITION. The meanings of the bus operations (`spec/41_bus_front_end.md` R120 to R134): the pin-side latches and the
data outputs of the oscillator sample that carries the operation. What the clock does in that sample is `step`'s part, which
recomputes the outputs from the state it leaves (R131). -/

namespace Sys2Proof.Machine

namespace State

/-- `FLOAT_BUS` (R133). -/
def floatByte (s : State) : Byte :=
  match s.cfg.floatBus with
  | .bus => s.bus
  | .fixed b => b
  | .unknown draw => Config.floatTap draw

/-- What a read of pin address 0 returns: the status byte, or the test tap in test-read mode, in the first tick of a reset too
(R129, R130, log entry 23). -/
def statusByte (s : State) : Byte := if s.cur.tReadSel then Config.testTap s.cur else s.cur.status

/-- R131: the data outputs for the read strobe `io_rd` and the pin address: the byte, and whether the chip drives it. -/
def busRead (s : State) (ioRd : Bool) (a : BitVec 2) : Byte × Bool :=
  if ioRd then (if a = 0 then (s.statusByte, true) else (s.floatByte, false)) else (s.bus, false)

/-- Drive the data outputs as R131 says. -/
def driveData (s : State) (ioRd : Bool) (a : BitVec 2) : State :=
  { s with out := { s.out with dataOut := (s.busRead ioRd a).1, dataOutEn := (s.busRead ioRd a).2 } }

end State

/-- `IDLE` (R120): no strobe; the strobe history falls, nothing is driven. -/
def execIdle (_pins : BitVec 5) (s : State) : Host.Outcome State Fault Refusal :=
  .next ((s.pinSide false false 0 0).driveData false 0)

/-- `WADDR` (R122): latch the register address and its bank; raise `wa_pend` at the strobe's first sample. With `rd` the
read of pin address `{bank, 0}` happens as well (R134). -/
def execWaddr (rd : Bool) (bank : BitVec 1) (data : Byte) (s : State) : Host.Outcome State Fault Refusal :=
  .next ((s.pinSide true false bank data).driveData rd (bank ++ (0 : BitVec 1)))

/-- `WDATA` (R123): latch the data byte; raise `wd_pend` at the strobe's first sample; the bank latch holds. With `rd` the
read of pin address `{a1, 1}` happens as well (R134). -/
def execWdata (rd : Bool) (a1 : BitVec 1) (data : Byte) (s : State) : Host.Outcome State Fault Refusal :=
  .next ((s.pinSide false true 0 data).driveData rd (a1 ++ (1 : BitVec 1)))

/-- `RSTAT` (R129, R130): drive the status byte, or the test tap while `t_read_sel = 1`. -/
def execRstat (s : State) : Host.Outcome State Fault Refusal :=
  .next ((s.pinSide false false 0 0).driveData true 0)

/-- `RFLOAT` (R133): show the fallback byte, not driven. Address 0 is no `RFLOAT` (log entry 17). -/
def execRfloat (a : BitVec 2) (s : State) : Host.Outcome State Fault Refusal :=
  .next ((s.pinSide false false 0 0).driveData true a)

end Sys2Proof.Machine
end

