-- ==== Sys2Proof/Machine/Operands.lean ====
section
/-! DEFINITION. Operand assembly (`spec/30_encoding.md` R90): every operand is an unsigned bit slice of the data byte, used as
is, but for the exceptions below. -/

namespace Sys2Proof.Machine

/-- The `n` bits of a data byte from bit `lo` up. -/
def field (d : Byte) (lo n : Nat) : BitVec n := d.extractLsb' lo n

/-- Bit `i` of a data byte. -/
def flag (d : Byte) (i : Nat) : Bool := d.getLsbD i

/-- The key-on code of channel `c`, `c + (c div 3)` (`43_register_writes.md` R169): codes 0, 1, 2, 4, 5, 6 are channels
0 to 5; 3 and 7 are no channel's code. -/
def konCode (c : Fin 6) : Nat := c.val + c.val / 3

/-- `kbit(p)`: the bit of the key-on operator mask for position `p` (R169). -/
def kbit (p : Fin 4) : Nat :=
  match p.val with
  | 0 => 0
  | 1 => 2
  | 2 => 1
  | _ => 3

/-- `sl5`: the sustain level as the 5-bit value the envelope compares with, 15 special-cased to 31
(`47_envelope_generator.md` R268). -/
def sl5 (sl : BitVec 4) : Nat := if sl.toNat = 15 then 31 else sl.toNat

/-- `mul2`: the multiplier in half units (`46_phase_generator.md` R240). -/
def mul2 (mul : BitVec 4) : Nat := if mul.toNat = 0 then 1 else 2 * mul.toNat

/-- The detune amount, bits 1:0 of the sign-and-magnitude field (R238). -/
def detuneAmount (dt : BitVec 3) : Nat := dt.toNat % 4

/-- The detune sign, bit 2 (R238). -/
def detuneNeg (dt : BitVec 3) : Bool := dt.getLsbD 2

/-- `dac9 = {dac_data, t_dac_lsb}` (`49_accumulator_dac.md` R318). -/
def dac9 (g : GlobRegs) : Nat := 2 * g.dacData.toNat + bit (flag g.test2c 3)

/-- `dacs`: the override sample read as offset binary, `-256 .. 255` (R318). -/
def dacs (g : GlobRegs) : Int := (dac9 g : Int) - 256

end Sys2Proof.Machine
end

