-- ==== Sys2Proof/Machine/ChanRegs.lean ====
section
/-! DEFINITION. The meanings of the channel register writes (`spec/43_register_writes.md` R181 to R186): what each writes into
the `next` halves, in the tick of the channel match (R147) for the channel fields and of the global write pulse (R145) for
the two holding latches. A `cib` of 3 selects no channel (`30_encoding.md` R83, log entry 17). -/

namespace Sys2Proof.Machine

/-- `FNUM_LO` (R181): `fnum <- {fhi_latch.cur[2:0], d}`, `block <- fhi_latch.cur[5:3]`. -/
def execFnumLo (bank : BitVec 1) (cib : BitVec 2) (d : Byte) (s : State) : Host.Outcome State Fault Refusal :=
  .next (s.writeChan (targetChan bank cib) fun k f =>
    { f with
      fnum := setAt f.fnum k (s.cur.chan.fhiLatch.extractLsb' 0 3 ++ d)
      block := setAt f.block k (s.cur.chan.fhiLatch.extractLsb' 3 3) })

/-- `FNUM_HI` (R182): `fhi_latch <- d[5:0]`, chip-wide; `cib = 3` is no `FNUM_HI`. -/
def execFnumHi (bank : BitVec 1) (cib : BitVec 2) (d : Byte) (s : State) : Host.Outcome State Fault Refusal :=
  .next (s.writeChan (targetChan bank cib) fun _ f => { f with fhiLatch := field d 0 6 })

/-- `FNUM3_LO` (R183): `fnum3[i] <- {fhi3_latch.cur[2:0], d}`, `block3[i] <- fhi3_latch.cur[5:3]`. -/
def execFnum3Lo (cib : BitVec 2) (d : Byte) (s : State) : Host.Outcome State Fault Refusal :=
  .next (s.writeChan (targetSet cib) fun k f =>
    { f with
      fnum3 := setAt f.fnum3 k (s.cur.chan.fhi3Latch.extractLsb' 0 3 ++ d)
      block3 := setAt f.block3 k (s.cur.chan.fhi3Latch.extractLsb' 3 3) })

/-- `FNUM3_HI` (R184): `fhi3_latch <- d[5:0]`. -/
def execFnum3Hi (cib : BitVec 2) (d : Byte) (s : State) : Host.Outcome State Fault Refusal :=
  .next (s.writeChan (targetSet cib) fun _ f => { f with fhi3Latch := field d 0 6 })

/-- `FB_ALG` (R185): `fb <- d[5:3]`, `alg <- d[2:0]`. -/
def execFbAlg (bank : BitVec 1) (cib : BitVec 2) (d : Byte) (s : State) : Host.Outcome State Fault Refusal :=
  .next (s.writeChan (targetChan bank cib) fun k f =>
    { f with fb := setAt f.fb k (field d 3 3), alg := setAt f.alg k (field d 0 3) })

/-- `PAN_LFO` (R186): `pan_l <- d[7]`, `pan_r <- d[6]`, `ams <- d[5:4]`, `pms <- d[2:0]`. -/
def execPanLfo (bank : BitVec 1) (cib : BitVec 2) (d : Byte) (s : State) : Host.Outcome State Fault Refusal :=
  .next (s.writeChan (targetChan bank cib) fun k f =>
    { f with
      panL := setAt f.panL k (flag d 7)
      panR := setAt f.panR k (flag d 6)
      ams := setAt f.ams k (field d 4 2)
      pms := setAt f.pms k (field d 0 3) })

end Sys2Proof.Machine
end

