-- ==== Sys2Proof/Machine/GlobalRegs.lean ====
section
/-! DEFINITION. The meanings of the global register writes (`spec/43_register_writes.md` R162 to R168, R170 to R173): what
each writes into the `next` halves in the tick of the global write pulse (R160). When that tick is, is `pendingWrite`'s part;
the reset forcing that overrides it (R161) is `State.forceReset`'s. -/

namespace Sys2Proof.Machine

/-- `TEST1` (R162): `test21 <- d`. -/
def execTest1 (d : Byte) (s : State) : Host.Outcome State Fault Refusal :=
  .next (s.setGlob { s.nxt.glob with test21 := d })

/-- `LFO` (R163): `lfo_en <- d[3]`, `lfo_freq <- d[2:0]`. -/
def execLfo (d : Byte) (s : State) : Host.Outcome State Fault Refusal :=
  .next (s.setGlob { s.nxt.glob with lfoEn := flag d 3, lfoFreq := field d 0 3 })

/-- `RESERVED_23` (R173): accepted, no effect. -/
def execReserved23 (_d : Byte) (s : State) : Host.Outcome State Fault Refusal := .next s

/-- `TA_HI` (R164): `ta_reload <- {d, ta_reload.cur[1:0]}`. -/
def execTaHi (d : Byte) (s : State) : Host.Outcome State Fault Refusal :=
  .next (s.setGlob { s.nxt.glob with taReload := d ++ s.cur.glob.taReload.extractLsb' 0 2 })

/-- `TA_LO` (R165): `ta_reload <- {ta_reload.cur[9:2], d[1:0]}`. -/
def execTaLo (d : Byte) (s : State) : Host.Outcome State Fault Refusal :=
  .next (s.setGlob { s.nxt.glob with taReload := s.cur.glob.taReload.extractLsb' 2 8 ++ field d 0 2 })

/-- `TB` (R166): `tb_reload <- d`. -/
def execTb (d : Byte) (s : State) : Host.Outcome State Fault Refusal :=
  .next (s.setGlob { s.nxt.glob with tbReload := d })

/-- `MODE` (R167): the eight mode bits; its reset requests win over their self-clearing of the same tick (R338). -/
def execMode (d : Byte) (s : State) : Host.Outcome State Fault Refusal :=
  .next (s.setGlob
    { s.nxt.glob with
      ch3Mode := field d 6 2
      tbReset := flag d 5
      taReset := flag d 4
      tbEnable := flag d 3
      taEnable := flag d 2
      tbLoad := flag d 1
      taLoad := flag d 0 })

/-- `KEYON` (R168): `kon_op <- d[7:4]`, `kon_ch <- d[2:0]`. The distribution to the slots is `konRegNext` (R169). -/
def execKeyon (d : Byte) (s : State) : Host.Outcome State Fault Refusal :=
  .next (s.setGlob { s.nxt.glob with konOp := field d 4 4, konCh := field d 0 3 })

/-- `RESERVED_29` (R173): accepted, no effect. -/
def execReserved29 (_d : Byte) (s : State) : Host.Outcome State Fault Refusal := .next s

/-- `DACDATA` (R170): `dac_data <- d`. -/
def execDacdata (d : Byte) (s : State) : Host.Outcome State Fault Refusal :=
  .next (s.setGlob { s.nxt.glob with dacData := d })

/-- `DACEN` (R171): `dac_en <- d[7]`. -/
def execDacen (d : Byte) (s : State) : Host.Outcome State Fault Refusal :=
  .next (s.setGlob { s.nxt.glob with dacEn := flag d 7 })

/-- `TEST2` (R172): `test2c <- d`. -/
def execTest2 (d : Byte) (s : State) : Host.Outcome State Fault Refusal :=
  .next (s.setGlob { s.nxt.glob with test2c := d })

/-- `RESERVED` (R89, R173, R187): accepted, no effect of its own. -/
def execReserved (_bank : BitVec 1) (_addr _d : Byte) (s : State) : Host.Outcome State Fault Refusal := .next s

end Sys2Proof.Machine
end

