-- ==== Sys2Proof/Machine/SlotRegs.lean ====
section
/-! DEFINITION. The meanings of the operator-slot register writes (`spec/43_register_writes.md` R174 to R180): what each writes
into the `next` halves of its slot in the tick of the operator match (`42_register_scan.md` R147), where the front slot is
the target slot. A `cib` of 3 selects no slot (`30_encoding.md` R83, log entry 17). -/

namespace Sys2Proof.Machine

/-- `DT_MUL` (R174): `dt[s] <- d[6:4]`, `mul[s] <- d[3:0]`. -/
def execDtMul (bank : BitVec 1) (pos cib : BitVec 2) (d : Byte) (s : State) : Host.Outcome State Fault Refusal :=
  .next (s.writeSlot (targetSlot bank pos cib) fun k f =>
    { f with dt := setAt f.dt k (field d 4 3), mul := setAt f.mul k (field d 0 4) })

/-- `TL` (R175): `tl[s] <- d[6:0]`. -/
def execTl (bank : BitVec 1) (pos cib : BitVec 2) (d : Byte) (s : State) : Host.Outcome State Fault Refusal :=
  .next (s.writeSlot (targetSlot bank pos cib) fun k f => { f with tl := setAt f.tl k (field d 0 7) })

/-- `KS_AR` (R176): `ks[s] <- d[7:6]`, `ar[s] <- d[4:0]`. -/
def execKsAr (bank : BitVec 1) (pos cib : BitVec 2) (d : Byte) (s : State) : Host.Outcome State Fault Refusal :=
  .next (s.writeSlot (targetSlot bank pos cib) fun k f =>
    { f with ks := setAt f.ks k (field d 6 2), ar := setAt f.ar k (field d 0 5) })

/-- `AM_DR` (R177): `am[s] <- d[7]`, `dr[s] <- d[4:0]`. -/
def execAmDr (bank : BitVec 1) (pos cib : BitVec 2) (d : Byte) (s : State) : Host.Outcome State Fault Refusal :=
  .next (s.writeSlot (targetSlot bank pos cib) fun k f =>
    { f with am := setAt f.am k (flag d 7), dr := setAt f.dr k (field d 0 5) })

/-- `SR` (R178): `sr[s] <- d[4:0]`. -/
def execSr (bank : BitVec 1) (pos cib : BitVec 2) (d : Byte) (s : State) : Host.Outcome State Fault Refusal :=
  .next (s.writeSlot (targetSlot bank pos cib) fun k f => { f with sr := setAt f.sr k (field d 0 5) })

/-- `SL_RR` (R179): `sl[s] <- d[7:4]`, `rr[s] <- d[3:0]`. -/
def execSlRr (bank : BitVec 1) (pos cib : BitVec 2) (d : Byte) (s : State) : Host.Outcome State Fault Refusal :=
  .next (s.writeSlot (targetSlot bank pos cib) fun k f =>
    { f with sl := setAt f.sl k (field d 4 4), rr := setAt f.rr k (field d 0 4) })

/-- `SSGEG` (R180): `ssg[s] <- d[3:0]`. -/
def execSsgeg (bank : BitVec 1) (pos cib : BitVec 2) (d : Byte) (s : State) : Host.Outcome State Fault Refusal :=
  .next (s.writeSlot (targetSlot bank pos cib) fun k f => { f with ssg := setAt f.ssg k (field d 0 4) })

end Sys2Proof.Machine
end

