-- ==== Sys2Proof/Syntax.lean ====
section
/-! DEFINITION. The instructions: the bus operations of format `BUS` and the register writes of format `REG`
(`spec/30_encoding.md`). One constructor per mnemonic of `spec/opcode_table.json`; the table's rows of one mnemonic are the
values of one operand (`cib`, the pin address of `RFLOAT`, the two spellings of `IDLE`). -/

namespace Sys2Proof

/-- The instructions. `bank`, `pos`, `cib` are the address fields of R83; `d` is the data byte of the write; a bus
operation's `data` is the byte on the data pins. -/
inductive Instr where
  -- Bus operations (R81), decoded from the pins at every oscillator sample.
  /-- `IDLE` (R120): the whole pin word `{cs, rd, wr, a1, a0}`, with `cs = 0` or `rd = wr = 0`. -/
  | idle (pins : BitVec 5)
  /-- `WADDR` (R122): an address-phase write; `rd` says that the word is a read as well (R81, R134). -/
  | waddr (rd : Bool) (bank : BitVec 1) (data : Byte)
  /-- `WDATA` (R123): a data-phase write; `a1` is on the pins and ignored; `rd` as for `WADDR`. -/
  | wdata (rd : Bool) (a1 : BitVec 1) (data : Byte)
  /-- `RSTAT` (R129, R130): a status read. -/
  | rstat
  /-- `RFLOAT` (R133): a read of pin address `a`, not 0. -/
  | rfloat (a : BitVec 2)
  -- Global mode registers (R86), bank 0.
  /-- `TEST1` (R162), 0x21. -/
  | test1 (d : Byte)
  /-- `LFO` (R163), 0x22. -/
  | lfo (d : Byte)
  /-- `RESERVED_23` (R173), 0x23. -/
  | reserved23 (d : Byte)
  /-- `TA_HI` (R164), 0x24. -/
  | taHi (d : Byte)
  /-- `TA_LO` (R165), 0x25. -/
  | taLo (d : Byte)
  /-- `TB` (R166), 0x26. -/
  | tb (d : Byte)
  /-- `MODE` (R167), 0x27. -/
  | mode (d : Byte)
  /-- `KEYON` (R168), 0x28. -/
  | keyon (d : Byte)
  /-- `RESERVED_29` (R173), 0x29. -/
  | reserved29 (d : Byte)
  /-- `DACDATA` (R170), 0x2A. -/
  | dacdata (d : Byte)
  /-- `DACEN` (R171), 0x2B. -/
  | dacen (d : Byte)
  /-- `TEST2` (R172), 0x2C. -/
  | test2 (d : Byte)
  -- Operator-slot registers (R87).
  /-- `DT_MUL` (R174), group 3. -/
  | dtMul (bank : BitVec 1) (pos cib : BitVec 2) (d : Byte)
  /-- `TL` (R175), group 4. -/
  | tl (bank : BitVec 1) (pos cib : BitVec 2) (d : Byte)
  /-- `KS_AR` (R176), group 5. -/
  | ksAr (bank : BitVec 1) (pos cib : BitVec 2) (d : Byte)
  /-- `AM_DR` (R177), group 6. -/
  | amDr (bank : BitVec 1) (pos cib : BitVec 2) (d : Byte)
  /-- `SR` (R178), group 7. -/
  | sr (bank : BitVec 1) (pos cib : BitVec 2) (d : Byte)
  /-- `SL_RR` (R179), group 8. -/
  | slRr (bank : BitVec 1) (pos cib : BitVec 2) (d : Byte)
  /-- `SSGEG` (R180), group 9. -/
  | ssgeg (bank : BitVec 1) (pos cib : BitVec 2) (d : Byte)
  -- Channel registers (R88).
  /-- `FNUM_LO` (R181), 0xA0. -/
  | fnumLo (bank : BitVec 1) (cib : BitVec 2) (d : Byte)
  /-- `FNUM_HI` (R182), 0xA4. -/
  | fnumHi (bank : BitVec 1) (cib : BitVec 2) (d : Byte)
  /-- `FNUM3_LO` (R183), 0xA8, bank 0. -/
  | fnum3Lo (cib : BitVec 2) (d : Byte)
  /-- `FNUM3_HI` (R184), 0xAC, bank 0. -/
  | fnum3Hi (cib : BitVec 2) (d : Byte)
  /-- `FB_ALG` (R185), 0xB0. -/
  | fbAlg (bank : BitVec 1) (cib : BitVec 2) (d : Byte)
  /-- `PAN_LFO` (R186), 0xB4. -/
  | panLfo (bank : BitVec 1) (cib : BitVec 2) (d : Byte)
  /-- `RESERVED` (R89, R173, R187): any other `{bank, addr}`. -/
  | reserved (bank : BitVec 1) (addr : Byte) (d : Byte)
deriving DecidableEq, Repr

/-- The two instruction formats (R80, R82): pins sampled every oscillator sample, and the latched register address. -/
inductive Format where
  | bus
  | reg
deriving DecidableEq, Repr

end Sys2Proof
end

