-- ==== Sys2Proof/Machine/Dispatch.lean ====
section
/-! DEFINITION. `exec`: one arm per instruction, each one call of its meaning. -/

namespace Sys2Proof.Machine

def exec (i : Instr) (s : State) : Host.Outcome State Fault Refusal :=
  match i with
  | .idle p => Sys2Proof.Machine.execIdle p s
  | .waddr rd bank data => Sys2Proof.Machine.execWaddr rd bank data s
  | .wdata rd a1 data => Sys2Proof.Machine.execWdata rd a1 data s
  | .rstat => Sys2Proof.Machine.execRstat s
  | .rfloat a => Sys2Proof.Machine.execRfloat a s
  | .test1 d => Sys2Proof.Machine.execTest1 d s
  | .lfo d => Sys2Proof.Machine.execLfo d s
  | .reserved23 d => Sys2Proof.Machine.execReserved23 d s
  | .taHi d => Sys2Proof.Machine.execTaHi d s
  | .taLo d => Sys2Proof.Machine.execTaLo d s
  | .tb d => Sys2Proof.Machine.execTb d s
  | .mode d => Sys2Proof.Machine.execMode d s
  | .keyon d => Sys2Proof.Machine.execKeyon d s
  | .reserved29 d => Sys2Proof.Machine.execReserved29 d s
  | .dacdata d => Sys2Proof.Machine.execDacdata d s
  | .dacen d => Sys2Proof.Machine.execDacen d s
  | .test2 d => Sys2Proof.Machine.execTest2 d s
  | .dtMul bank pos cib d => Sys2Proof.Machine.execDtMul bank pos cib d s
  | .tl bank pos cib d => Sys2Proof.Machine.execTl bank pos cib d s
  | .ksAr bank pos cib d => Sys2Proof.Machine.execKsAr bank pos cib d s
  | .amDr bank pos cib d => Sys2Proof.Machine.execAmDr bank pos cib d s
  | .sr bank pos cib d => Sys2Proof.Machine.execSr bank pos cib d s
  | .slRr bank pos cib d => Sys2Proof.Machine.execSlRr bank pos cib d s
  | .ssgeg bank pos cib d => Sys2Proof.Machine.execSsgeg bank pos cib d s
  | .fnumLo bank cib d => Sys2Proof.Machine.execFnumLo bank cib d s
  | .fnumHi bank cib d => Sys2Proof.Machine.execFnumHi bank cib d s
  | .fnum3Lo cib d => Sys2Proof.Machine.execFnum3Lo cib d s
  | .fnum3Hi cib d => Sys2Proof.Machine.execFnum3Hi cib d s
  | .fbAlg bank cib d => Sys2Proof.Machine.execFbAlg bank cib d s
  | .panLfo bank cib d => Sys2Proof.Machine.execPanLfo bank cib d s
  | .reserved bank addr d => Sys2Proof.Machine.execReserved bank addr d s

end Sys2Proof.Machine
end

