-- ==== Sys2Proof/WellFormed.lean ====
section
/-! DEFINITION. Which instruction terms stand for an encoding (`spec/30_encoding.md`), and which configurations meet the
constraints of `spec/00_scope.md` R6 and `spec/44_timing_sequencer.md` R205. -/

namespace Sys2Proof

/-- The reserved register words of R89 that have no row of their own: `addr` 0x00 to 0x20, 0x2D to 0x2F; 0x21 to 0x2C in
bank 1; `cib = 3` in 0x30 to 0xB6; 0xA8 to 0xAE in bank 1; 0xB7 to 0xFF. (0x23 and 0x29 of bank 0 are the rows
`RESERVED_23` and `RESERVED_29`.) -/
def reservedAddr (bank : BitVec 1) (addr : Byte) : Bool :=
  let a := addr.toNat
  decide (a ≤ 0x20) || (decide (0x2D ≤ a) && decide (a ≤ 0x2F))
    || (decide (0x21 ≤ a) && decide (a ≤ 0x2C) && bank == 1)
    || (decide (0x30 ≤ a) && decide (a ≤ 0xB6) && a % 4 == 3)
    || (decide (0xA8 ≤ a) && decide (a ≤ 0xAE) && bank == 1)
    || decide (0xB7 ≤ a)

/-- The instruction term is one an encoding gives: an `IDLE` word really is idle (R81), the address of an `RFLOAT` is not 0
(R133), `cib` is not the gap value 3 (R83), a `RESERVED` address is reserved (R89). -/
def Instr.wf : Instr → Bool
  | .idle p => !p[4] || (!p[3] && !p[2])
  | .waddr _ _ _ => true
  | .wdata _ _ _ => true
  | .rstat => true
  | .rfloat a => a != 0
  | .test1 _ => true
  | .lfo _ => true
  | .reserved23 _ => true
  | .taHi _ => true
  | .taLo _ => true
  | .tb _ => true
  | .mode _ => true
  | .keyon _ => true
  | .reserved29 _ => true
  | .dacdata _ => true
  | .dacen _ => true
  | .test2 _ => true
  | .dtMul _ _ cib _ => cib != 3
  | .tl _ _ cib _ => cib != 3
  | .ksAr _ _ cib _ => cib != 3
  | .amDr _ _ cib _ => cib != 3
  | .sr _ _ cib _ => cib != 3
  | .slRr _ _ cib _ => cib != 3
  | .ssgeg _ _ cib _ => cib != 3
  | .fnumLo _ cib _ => cib != 3
  | .fnumHi _ cib _ => cib != 3
  | .fnum3Lo cib _ => cib != 3
  | .fnum3Hi cib _ => cib != 3
  | .fbAlg _ cib _ => cib != 3
  | .panLfo _ cib _ => cib != 3
  | .reserved bank addr _ => reservedAddr bank addr

/-! ### Configurations -/

/-- The number of maximal runs of `true` in a list, given the value before its head. -/
def runs : Bool → List Bool → Nat
  | _, [] => 0
  | before, b :: l => (if b && !before then 1 else 0) + runs b l

/-- `f` is true at exactly one record. -/
def onePulse (f : FsmRec → Bool) (t : List FsmRec) : Bool := (t.filter f).length == 1

/-- The operator-select pulse of position `k` (R204). -/
def FsmRec.selOp (r : FsmRec) (k : Nat) : Bool :=
  match k with
  | 0 => r.selOp0
  | 1 => r.selOp1
  | 2 => r.selOp2
  | 3 => r.selOp3
  | _ => false

/-- The record at `q` selects exactly the position of the front slot (which is `q / 8` when `q` is no gap), at a gap at
most one position, and `ch3_sel` and `restart` stand where R205 puts them. -/
def fsmRecOk (q : Nat) (r : FsmRec) : Bool :=
  (if q % 4 == 3 then
      decide (([0, 1, 2, 3].filter r.selOp).length ≤ 1)
    else
      [0, 1, 2, 3].all fun k => r.selOp k == (q / 8 == k))
    && r.ch3Sel == (q % 8 == 2) && r.restart == (q == 31)

/-- Every record of the list, the first of them at position `q`, passes `fsmRecOk`. -/
def fsmRecsOk : Nat → List FsmRec → Bool
  | _, [] => true
  | q, r :: l => fsmRecOk q r && fsmRecsOk (q + 1) l

/-- The constraints R205 puts on one table: 32 records; every operator-select pulse one contiguous run over exactly its six
slots, the four disjoint; one envelope clock, one fine and one coarse timer clock; `restart` at 31 only; `ch3_sel` exactly
at channel 2. -/
def fsmTableWf (t : List FsmRec) : Bool :=
  t.length == 32 && fsmRecsOk 0 t
    && ([0, 1, 2, 3].all fun k => runs false (t.map fun r => r.selOp k) == 1)
    && onePulse FsmRec.egClock t && onePulse FsmRec.tmrFine t && onePulse FsmRec.tmrCoarse t

/-- The relative order of the envelope clock, the fine and the coarse timer clock in a table. -/
def pulseOrder (t : List FsmRec) : Ordering × Ordering × Ordering :=
  let e := t.findIdx FsmRec.egClock
  let f := t.findIdx FsmRec.tmrFine
  let c := t.findIdx FsmRec.tmrCoarse
  (compare e f, compare e c, compare f c)

/-- The list has `n` entries, all below `m`. -/
def tableOf (n m : Nat) (l : List Nat) : Bool := l.length == n && l.all fun x => decide (x < m)

/-- The list has `n` rows, each a `tableOf k m`. -/
def tableOf2 (n k m : Nat) (l : List (List Nat)) : Bool := l.length == n && l.all (tableOf k m)

/-- A source list of R208: zero, one or two of OP1, OP2, OP3, none twice. -/
def sourcesOk (l : List OpName) : Bool :=
  decide (l.length ≤ 2) && !l.contains .op4 && decide l.Nodup

/-- One row of the routing table. -/
def algRowOk (r : AlgRow) : Bool :=
  sourcesOk r.srcOp2 && sourcesOk r.srcOp3 && sourcesOk r.srcOp4 && decide r.taps.Nodup

namespace Config

/-- The periods and lengths have the least values R6 and the rules give them; `EG_PRESCALE` is at most 4, the values of the
2-bit `eg_quot` (R32). -/
def periodsOk (c : Config) : Bool :=
  decide (2 ≤ c.prescMono) && decide (2 ≤ c.prescStereo) && decide (2 ≤ c.dclkPeriod) && decide (2 ≤ c.resetDebounce)
    && decide (1 ≤ c.egPrescale) && decide (c.egPrescale ≤ 4) && decide (1 ≤ c.dacWordBits)

/-- The two enable tables meet R205, and place the three clocks in different relative orders. -/
def fsmOk (c : Config) : Bool :=
  fsmTableWf c.fsmMono && fsmTableWf c.fsmStereo && pulseOrder c.fsmMono != pulseOrder c.fsmStereo

/-- Every numeric table has the size its rule gives, and entries within a width. Three widths are the rules' own: R232 (2 bits,
the low part of the 5-bit `kcode`), R292 (12 bits), R293 (10 bits). The other tables have no width in the spec, and their
bounds, which the default entries meet, are a choice (DESIGN CHOICE, log entry 25): `LFO_PERIOD` 7 bits, `PM_SH1` and `PM_SH2`
3 bits, `DETUNE_BASE` 5 bits, `EG_STEPHI` 1 bit, `EG_AM_SHIFT` 3 bits. -/
def tablesOk (c : Config) : Bool :=
  tableOf 8 128 c.lfoPeriod && tableOf 16 4 c.fnNote && tableOf2 8 8 8 c.pmSh1 && tableOf2 8 8 8 c.pmSh2
    && tableOf 8 32 c.detuneBase && tableOf2 4 4 2 c.egStepHi && tableOf 4 8 c.egAmShift
    && tableOf 256 4096 c.logsin && tableOf 256 1024 c.exprom

/-- The routing table has eight rows of the shape of R208. -/
def routingOk (c : Config) : Bool := c.routing.length == 8 && c.routing.all algRowOk

/-- The configuration is one the spec admits, with table entries within the bounds of log entry 25. -/
def wf (c : Config) : Bool := c.periodsOk && c.fsmOk && c.tablesOk && c.routingOk

end Config

end Sys2Proof
end

