-- ==== Sys2Proof/Decode.lean ====
section
/-! DEFINITION. Decoding and encoding (`spec/30_encoding.md` R80 to R89). The two formats are decoded at two places of the
machine: a `BUS` word from the pins at every sample, a `REG` word from `{reg_bank, reg_addr}` inside a tick. No encoding
is illegal (R89), so decoding the words is total; only a byte string that is no pair of such words is rejected, by name. -/

namespace Sys2Proof

/-! ### The two word decoders -/

/-- R81: the bus operation the pin word `{cs, rd, wr, a1, a0}` spells, with the byte on the data pins. A word that is both
a write and a read decodes to the write with its `rd` bit (log entry 4). -/
def decodeBus (w : BitVec 5) (data : Byte) : Instr :=
  if w[4] then
    if w[2] then
      if w[0] then .wdata w[3] (w.extractLsb' 1 1) data else .waddr w[3] (w.extractLsb' 1 1) data
    else if w[3] then
      if w.extractLsb' 0 2 = 0 then .rstat else .rfloat (w.extractLsb' 0 2)
    else .idle w
  else .idle w

/-- R86: the global mode registers of bank 0, and the two reserved addresses among them. -/
def decodeGlobal (addr : Byte) (d : Byte) : Instr :=
  match addr.toNat with
  | 0x21 => .test1 d
  | 0x22 => .lfo d
  | 0x23 => .reserved23 d
  | 0x24 => .taHi d
  | 0x25 => .taLo d
  | 0x26 => .tb d
  | 0x27 => .mode d
  | 0x28 => .keyon d
  | 0x29 => .reserved29 d
  | 0x2A => .dacdata d
  | 0x2B => .dacen d
  | 0x2C => .test2 d
  | _ => .reserved 0 addr d

/-- R87: the operator-slot registers, by group. -/
def decodeSlot (bank : BitVec 1) (addr : Byte) (d : Byte) : Instr :=
  let pos := addr.extractLsb' 2 2
  let cib := addr.extractLsb' 0 2
  match addr.toNat / 16 with
  | 3 => .dtMul bank pos cib d
  | 4 => .tl bank pos cib d
  | 5 => .ksAr bank pos cib d
  | 6 => .amDr bank pos cib d
  | 7 => .sr bank pos cib d
  | 8 => .slRr bank pos cib d
  | 9 => .ssgeg bank pos cib d
  | _ => .reserved bank addr d

/-- R88: the channel registers, by `addr[7:2]`. The special-channel registers exist in bank 0 only. -/
def decodeChan (bank : BitVec 1) (addr : Byte) (d : Byte) : Instr :=
  let cib := addr.extractLsb' 0 2
  match addr.toNat / 4 with
  | 0x28 => .fnumLo bank cib d
  | 0x29 => .fnumHi bank cib d
  | 0x2A => if bank = 0 then .fnum3Lo cib d else .reserved bank addr d
  | 0x2B => if bank = 0 then .fnum3Hi cib d else .reserved bank addr d
  | 0x2C => .fbAlg bank cib d
  | 0x2D => .panLfo bank cib d
  | _ => .reserved bank addr d

/-- R85: the decode order of a register word `{bank, addr}`. -/
def decodeReg (w : BitVec 9) (d : Byte) : Instr :=
  let bank := w.extractLsb' 8 1
  let addr := w.extractLsb' 0 8
  let a := addr.toNat
  if 0x21 ≤ a ∧ a ≤ 0x2C ∧ bank = 0 then decodeGlobal addr d
  else if 0x30 ≤ a ∧ a ≤ 0x9F ∧ a % 4 ≠ 3 then decodeSlot bank addr d
  else if 0xA0 ≤ a ∧ a ≤ 0xB6 ∧ a % 4 ≠ 3 then decodeChan bank addr d
  else .reserved bank addr d

/-! ### Decoding bytes -/

/-- Why a byte string is no instruction word. -/
inductive DecodeError where
  /-- The string has not the format's length: 2 bytes for `BUS`, 3 for `REG`. -/
  | length
  /-- A bit above the format's word (bits 7:5 of a `BUS` word, bits 15:9 of a `REG` word) is 1. -/
  | padding
deriving DecidableEq, Repr

/-- Decode an instruction laid out as bytes (log entry 16): the word first, least significant byte first, then the operand
byte on the data pins. -/
def decode : Format → List Byte → Except DecodeError Instr
  | .bus, [w, data] => if w.extractLsb' 5 3 = 0 then .ok (decodeBus (w.extractLsb' 0 5) data) else .error .padding
  | .bus, _ => .error .length
  | .reg, [lo, hi, d] => if hi.extractLsb' 1 7 = 0 then .ok (decodeReg (hi.extractLsb' 0 1 ++ lo) d) else .error .padding
  | .reg, _ => .error .length

/-- The low `n` bytes of `w`, least significant first. -/
def bytesLE (w : Nat) : Nat → List Byte
  | 0 => []
  | n + 1 => BitVec.ofNat 8 w :: bytesLE (w / 256) n

/-- How many bytes an instruction of the format has: its word in whole bytes and the operand byte. -/
def Format.length : Format → Nat
  | .bus => 2
  | .reg => 3

/-- The format of a row of `spec/opcode_table.json` from the bits the table gives it: 5 (one byte) for `BUS`, 9 (two
bytes) for `REG`. -/
def formatOfBits (nbits : Nat) : Format := if nbits ≤ 8 then .bus else .reg

/-- The instruction the decoder reads from an instruction whose bits are `w`, numbered as `spec/opcode_table.json` numbers
them; the operand byte lies above the word and is 0 where `w` does not reach it. -/
def decodeTableWord (nbits w : Nat) : Option Instr :=
  let f := formatOfBits nbits
  if w < 2 ^ (8 * f.length) then (decode f (bytesLE w f.length)).toOption else none

/-! ### Encoding -/

/-- The pin word `{cs, rd, wr, a1, a0}` of a bus operation. -/
def busWord (cs rd wr : Bool) (a : BitVec 2) : BitVec 5 :=
  BitVec.ofBool cs ++ (BitVec.ofBool rd ++ (BitVec.ofBool wr ++ a))

/-- The address byte `grp sub cib` of R83, four, two and two bits. -/
def fieldAddr (grp : BitVec 4) (sub cib : BitVec 2) : Byte := grp ++ (sub ++ cib)

/-- The word of an instruction and its operand byte, in its format. -/
inductive Encoding where
  /-- A pin word and the byte on the data pins. -/
  | bus (w : BitVec 5) (data : Byte)
  /-- A register word `{bank, addr}` and the data byte. -/
  | reg (w : BitVec 9) (d : Byte)
deriving DecidableEq, Repr

/-- The register word `{bank, addr}` of R82. -/
def regWord (bank : BitVec 1) (addr : Byte) : BitVec 9 := bank ++ addr

/-- The encoding of an instruction, from the tables of R81 and R86 to R89. -/
def encodeWord : Instr → Encoding
  | .idle p => .bus p 0
  | .waddr rd bank data => .bus (busWord true rd true (bank ++ (0 : BitVec 1))) data
  | .wdata rd a1 data => .bus (busWord true rd true (a1 ++ (1 : BitVec 1))) data
  | .rstat => .bus (busWord true true false 0) 0
  | .rfloat a => .bus (busWord true true false a) 0
  | .test1 d => .reg (regWord 0 0x21) d
  | .lfo d => .reg (regWord 0 0x22) d
  | .reserved23 d => .reg (regWord 0 0x23) d
  | .taHi d => .reg (regWord 0 0x24) d
  | .taLo d => .reg (regWord 0 0x25) d
  | .tb d => .reg (regWord 0 0x26) d
  | .mode d => .reg (regWord 0 0x27) d
  | .keyon d => .reg (regWord 0 0x28) d
  | .reserved29 d => .reg (regWord 0 0x29) d
  | .dacdata d => .reg (regWord 0 0x2A) d
  | .dacen d => .reg (regWord 0 0x2B) d
  | .test2 d => .reg (regWord 0 0x2C) d
  | .dtMul bank pos cib d => .reg (regWord bank (fieldAddr 3 pos cib)) d
  | .tl bank pos cib d => .reg (regWord bank (fieldAddr 4 pos cib)) d
  | .ksAr bank pos cib d => .reg (regWord bank (fieldAddr 5 pos cib)) d
  | .amDr bank pos cib d => .reg (regWord bank (fieldAddr 6 pos cib)) d
  | .sr bank pos cib d => .reg (regWord bank (fieldAddr 7 pos cib)) d
  | .slRr bank pos cib d => .reg (regWord bank (fieldAddr 8 pos cib)) d
  | .ssgeg bank pos cib d => .reg (regWord bank (fieldAddr 9 pos cib)) d
  | .fnumLo bank cib d => .reg (regWord bank (fieldAddr 0xA 0 cib)) d
  | .fnumHi bank cib d => .reg (regWord bank (fieldAddr 0xA 1 cib)) d
  | .fnum3Lo cib d => .reg (regWord 0 (fieldAddr 0xA 2 cib)) d
  | .fnum3Hi cib d => .reg (regWord 0 (fieldAddr 0xA 3 cib)) d
  | .fbAlg bank cib d => .reg (regWord bank (fieldAddr 0xB 0 cib)) d
  | .panLfo bank cib d => .reg (regWord bank (fieldAddr 0xB 1 cib)) d
  | .reserved bank addr d => .reg (regWord bank addr) d

/-- The format of an encoding. -/
def Encoding.format : Encoding → Format
  | .bus _ _ => .bus
  | .reg _ _ => .reg

/-- The bytes of an encoding: the word, least significant byte first, then the operand byte. -/
def Encoding.bytes : Encoding → List Byte
  | .bus w data => [w.zeroExtend 8, data]
  | .reg w d => [w.extractLsb' 0 8, (w.extractLsb' 8 1).zeroExtend 8, d]

/-- The words of a well-formed instruction, as bytes. -/
def encode (i : Instr) : List Byte := (encodeWord i).bytes

/-- The format an instruction is encoded in. -/
def formatOf (i : Instr) : Format := (encodeWord i).format

end Sys2Proof
end

