-- ==== Sys2Proof/Machine/Sequencer.lean ====
section
/-! DEFINITION. The timing sequencer: counters, enable record, routing enables (`spec/44_timing_sequencer.md`), and the
clocked half of the bus front end and of the register scan (`41_bus_front_end.md` R125, R127; `42_register_scan.md` R144,
R145, R147). -/

namespace Sys2Proof.Machine

/-! ### Enables -/

/-- `E = FSM_TABLE[VARIANT][q]` (R204). -/
def enables (c : Config) (r : Regs) : FsmRec := c.fsmTable.getD r.q FsmRec.idle

/-- The slot the per-slot stages work on in this tick: the front slot, if its operator-select pulse is 1 (R203). -/
def visited (e : FsmRec) (r : Regs) : Option (Fin 24) :=
  match r.frontSlot with
  | some s => if e.selOp (posOf s).val then some s else none
  | none => none

/-! ### Counters -/

/-- The two-level counter's inner half: 0, 1, 2, 3 and wrap. -/
def cnt1Next (cnt1 : BitVec 2) : BitVec 2 := cnt1 + 1

/-- The outer half, advanced when the inner one wraps. -/
def cnt2Next (cnt1 : BitVec 2) (cnt2 : BitVec 3) : BitVec 3 := if cnt1 = 3 then cnt2 + 1 else cnt2

/-- R200 and R201: both counters at phase 1. -/
def scanNext (c : Config) (e : FsmRec) (r : Regs) : ScanRegs :=
  let f := fsmReset c r
  { regCnt1 := if f || e.restart then 0 else cnt1Next r.scan.regCnt1
    regCnt2 := if f || e.restart then 0 else cnt2Next r.scan.regCnt1 r.scan.regCnt2
    fsmCnt1 := if f then 0 else cnt1Next r.scan.fsmCnt1
    fsmCnt2 := if f then 0 else cnt2Next r.scan.fsmCnt1 r.scan.fsmCnt2 }

/-! ### Bus front end and register scan, clocked half -/

/-- The global write pulse `gw` of R145. -/
def globalPulse (r : Regs) : Bool := r.bus.wdEn && !r.bus.waEn

/-- The operator match `om` of R147. -/
def operatorMatch (r : Regs) : Bool :=
  let a := r.bus.regAddr
  r.bus.dataValid && decide (0x30 ≤ a.toNat) && decide (a.toNat ≤ 0x9F) && a.extractLsb' 0 2 != 3
    && a.extractLsb' 0 2 == r.scan.regCnt1 && r.bus.regBank == r.scan.regCnt2.extractLsb' 0 1
    && a.extractLsb' 2 2 == r.scan.regCnt2.extractLsb' 1 2

/-- The channel match `cm` of R147. -/
def channelMatch (r : Regs) : Bool :=
  let a := r.bus.regAddr
  r.bus.dataValid && decide (0xA0 ≤ a.toNat) && decide (a.toNat ≤ 0xB6) && a.extractLsb' 0 2 != 3
    && a.extractLsb' 0 2 == r.scan.regCnt1 && r.bus.regBank == r.scan.regCnt2.extractLsb' 0 1

/-- R127: the busy countdown at phase 1. -/
def busyNext (c : Config) (r : Regs) : Nat := if r.bus.wdEn then c.busyLen else r.bus.busyCnt - 1

/-- The clocked half of the bus front end and the address and data capture (R125, R127, R144, R145). -/
def busNext (s : State) : BusRegs :=
  let b := s.cur.bus
  { waEn := s.raw.waPend
    wdEn := s.raw.wdPend
    regAddr := if b.waEn then s.bus else b.regAddr
    regBank := if b.waEn then s.raw.bankLatch else b.regBank
    regData := if globalPulse s.cur then s.bus else b.regData
    dataValid := if b.waEn then false else if globalPulse s.cur then true else b.dataValid
    busyCnt := busyNext s.cfg s.cur }

/-! ### Routing (R208, R209) -/

/-- The routing row of an algorithm. -/
def algRow (c : Config) (a : BitVec 3) : AlgRow :=
  c.routing.getD a.toNat { srcOp2 := [], srcOp3 := [], srcOp4 := [], taps := [] }

/-- `SRC(a, X)` (R208); OP1's input is its own feedback, so it has none. -/
def sources (c : Config) (a : BitVec 3) (x : OpName) : List OpName :=
  match x with
  | .op1 => []
  | .op2 => (algRow c a).srcOp2
  | .op3 => (algRow c a).srcOp3
  | .op4 => (algRow c a).srcOp4

/-- `OUT(a, X)` (R208): the operator is an output tap of the algorithm. -/
def isTap (c : Config) (a : BitVec 3) (x : OpName) : Bool := (algRow c a).taps.contains x

/-- `en_src[Z]` (R209): operator `z` feeds the modulation input of `x` under algorithm `a`. -/
def enSrc (c : Config) (a : BitVec 3) (x z : OpName) : Bool := (sources c a x).contains z

end Sys2Proof.Machine
end

