-- ==== Sys2Proof/Machine/OperatorNet.lean ====
section
/-! DEFINITION. The operator and algorithm network (`spec/48_operator_network.md`). -/

namespace Sys2Proof.Machine

/-! ### The operator (R291 to R298) -/

/-- `ph10` (R291). -/
def phaseWord (phase : BitVec 20) (modIn : BitVec 10) : BitVec 10 := phase.extractLsb' 10 10 + modIn

/-- `q8` (R294): the quarter-wave fold. -/
def quarterIndex (ph10 : BitVec 10) : Nat :=
  if ph10.getLsbD 8 then 255 - ph10.toNat % 256 else ph10.toNat % 256

/-- `lg` (R295, R296). -/
def logSum (c : Config) (ph10 : BitVec 10) (egOut : BitVec 10) : Nat :=
  min (entry c.logsin (quarterIndex ph10) + 4 * egOut.toNat) 0x1FFF

/-- `mag` (R297). -/
def magnitude (c : Config) (lg : Nat) : Nat :=
  ((entry c.exprom (255 - lg % 256) ||| 0x400) <<< 2) >>> (lg / 256)

/-- `op_out` (R297): the signed output for a phase word and an attenuation. -/
def operatorOut (c : Config) (ph10 : BitVec 10) (egOut : BitVec 10) : BitVec 14 :=
  let mag : Int := magnitude c (logSum c ph10 egOut)
  BitVec.ofInt 14 (if ph10.getLsbD 9 then -mag else mag)

/-- The output a visit of slot `s` commits (R290 to R297). -/
def visitOpOut (c : Config) (r : Regs) (s : Fin 24) : BitVec 14 :=
  operatorOut c (phaseWord r.pg.phase[s] r.op.modIn) r.eg.out[s]

/-! ### Modulation input (R299) -/

/-- `slotof(nc, Z)`: the slot of a logical operator of a channel. -/
def slotOfOp (c : Fin 6) (z : OpName) : Fin 24 :=
  match z with
  | .op1 => slotOf 0 c
  | .op3 => slotOf 1 c
  | .op2 => slotOf 2 c
  | .op4 => slotOf 3 c

/-- `op_out` of a logical operator as a signed integer. -/
def opSample (r : Regs) (c : Fin 6) (z : OpName) : Int := r.op.opOut[slotOfOp c z].toInt

/-- The feedback term of OP1 (R299). -/
def feedback (r : Regs) (c : Fin 6) : Int :=
  let f := r.chan.fb[c].toNat
  if f = 0 then 0 else asr (opSample r c .op1 + r.op.op1Prev[c].toInt) (10 - f)

/-- The sum of the enabled sources of operator `x` of channel `c`, halved (R299). -/
def modulation (cfg : Config) (r : Regs) (c : Fin 6) (x : OpName) : Int :=
  let term (z : OpName) : Int := if enSrc cfg r.chan.alg[c] x z then opSample r c z else 0
  asr (term .op1 + term .op2 + term .op3) 1

/-- `mod_in` (R299): prepared in every tick for the slot at the next scan position. -/
def modInNext (cfg : Config) (r : Regs) : BitVec 10 :=
  match slotAtPos ((r.pos5 + 1) % 32) with
  | none => 0
  | some ns =>
    if (posOf ns).val = 0 then BitVec.ofInt 10 (feedback r (chanOf ns))
    else BitVec.ofInt 10 (modulation cfg r (chanOf ns) (opName (posOf ns)))

/-- The operator network at phase 1 (R290, R297 to R299). -/
def opNext (c : Config) (e : FsmRec) (r : Regs) : OpRegs :=
  match visited e r with
  | none => { r.op with modIn := modInNext c r }
  | some s =>
    { opOut := setAt r.op.opOut s (visitOpOut c r s)
      op1Prev := if (posOf s).val = 0 then setAt r.op.op1Prev (chanOf s) r.op.opOut[s] else r.op.op1Prev
      modIn := modInNext c r }

end Sys2Proof.Machine
end

