-- ==== Sys2Proof/Machine/Accumulator.lean ====
section
/-! DEFINITION. The accumulators, the output multiplexer, the panning mixer and the serializer
(`spec/49_accumulator_dac.md`). -/

namespace Sys2Proof.Machine

/-- `v` (R311): the contribution of the visited operator. -/
def contribution (c : Config) (r : Regs) (s : Fin 24) : Int :=
  if isTap c r.chan.alg[chanOf s] (opName (posOf s)) then asr r.op.opOut[s].toInt (14 - c.accBits) else 0

/-- R312: the running sum outside the first window. -/
def accSum (c : Config) (acc v : Int) : Int := satS c.accBits (acc + v)

/-- The override replaces the synthesised value in this tick (R318). -/
def overrides (e : FsmRec) (r : Regs) : Bool := e.dacOutSel && r.glob.dacEn

/-- R317: the mono output multiplexer. With no front channel to show, and no override, the sample is a free value
(log entry 9). -/
def monoOutNext (e : FsmRec) (r : Regs) : Int :=
  if e.dacLoad then
    if overrides e r then dacs r.glob
    else match r.frontChan with
      | some fc => r.acc.chOut[fc]
      | none => (Config.gapSample r).toInt
  else r.acc.monoOut

/-- `x` of R315: the finished sum of the channel, or the scaled override. -/
def mixTerm (e : FsmRec) (r : Regs) (c : Fin 6) : Int := if overrides e r then dacs r.glob * 32 else r.acc.chAcc[c]

/-- One side of the panned mix (R315, R316): `prev` is the sum so far. -/
def mixSide (cfg : Config) (c : Fin 6) (prev x : Int) (pan : Bool) : Int :=
  satS cfg.dacWordBits ((if c.val = 0 then 0 else prev) + (if pan then x else 0))

/-- `{mix_l, mix_r}` as one word of `2*W` bits (R319). -/
def dacWordOf (w : Nat) (l r : Int) : Nat := 2 ^ w * wrap w l + wrap w r

/-- The per-channel accumulators at phase 1 (R310 to R313). -/
def chAccNext (c : Config) (e : FsmRec) (r : Regs) : Vector Int 6 × Vector Int 6 :=
  match visited e r with
  | none => (r.acc.chAcc, r.acc.chOut)
  | some s =>
    let ch := chanOf s
    let v := contribution c r s
    if (posOf s).val = 0 then
      (setAt r.acc.chAcc ch (satS c.accBits v), setAt r.acc.chOut ch r.acc.chAcc[ch])
    else (setAt r.acc.chAcc ch (accSum c r.acc.chAcc[ch] v), r.acc.chOut)

/-- The two mixes at phase 1 (R315). -/
def mixNext (c : Config) (e : FsmRec) (r : Regs) : Int × Int :=
  match visited e r with
  | none => (r.acc.mixL, r.acc.mixR)
  | some s =>
    if (posOf s).val = 0 then
      let ch := chanOf s
      let x := mixTerm e r ch
      (mixSide c ch r.acc.mixL x r.chan.panL[ch], mixSide c ch r.acc.mixR x r.chan.panR[ch])
    else (r.acc.mixL, r.acc.mixR)

/-- The accumulator and output stage at phase 1 (R310 to R319); the fields of the other variant hold (log entry 14). -/
def accNext (c : Config) (e : FsmRec) (r : Regs) : AccRegs :=
  let a := chAccNext c e r
  match c.variant with
  | .mono => { r.acc with chAcc := a.1, chOut := a.2, monoOut := monoOutNext e r }
  | .stereo =>
    let m := mixNext c e r
    { r.acc with
      chAcc := a.1
      chOut := a.2
      mixL := m.1
      mixR := m.2
      dacWord := if e.dacLoad then dacWordOf c.dacWordBits r.acc.mixL r.acc.mixR else r.acc.dacWord }

/-! ### Serializer (R321), on raw latches -/

/-- `w` of R321: the word loaded or the register shifted. -/
def serialWord (c : Config) (e : FsmRec) (r : Regs) (sr : Nat) : Nat :=
  if e.shLoad then r.acc.dacWord else 2 * sr % 2 ^ (2 * c.dacWordBits)

/-- The serializer at one sample: forced to 0 at a sample `inReset`, else the divided-clock events `d1`, `d2` (R321). It reads
the enable record and `dac_word` after the commit of the sample (log entry 8). -/
def State.serialize (s : State) (inReset d1 d2 : Bool) : State :=
  if inReset then
    { s with raw := { s.raw with dacSr := 0, so := false, wc := false, lrc := false, bck := false } }
  else if d1 then
    let e := enables s.cfg s.cur
    let w := serialWord s.cfg e s.cur s.raw.dacSr
    { s with
      raw :=
        { s.raw with
          dacSr := w
          so := w.testBit (2 * s.cfg.dacWordBits - 1)
          lrc := e.shLr
          wc := e.shWc
          bck := true } }
  else if d2 then { s with raw := { s.raw with bck := false } }
  else s

end Sys2Proof.Machine
end

