-- ==== Sys2Proof/Machine/Lfo.lean ====
section
/-! DEFINITION. The low-frequency oscillator (`spec/45_lfo.md`). -/

namespace Sys2Proof.Machine

/-- The fast counter has reached its period: `(lfo_quot and L) = L` (R220). -/
def lfoAtPeriod (c : Config) (r : Regs) : Bool :=
  let l := entry c.lfoPeriod r.glob.lfoFreq.toNat
  r.lfo.quot.toNat &&& l == l

/-- R220 to R224: the LFO at phase 1. -/
def lfoNext (c : Config) (e : FsmRec) (r : Regs) : LfoRegs :=
  let counts := e.restart && !r.tLfoHold
  { quot := if counts then (if lfoAtPeriod c r then 0 else r.lfo.quot + 1) else r.lfo.quot
    wrap := counts && lfoAtPeriod c r
    cnt := if r.glob.lfoEn then (if r.lfo.wrap then r.lfo.cnt + 1 else r.lfo.cnt) else 0
    out := if e.restart then r.lfo.cnt else r.lfo.out }

/-- `lfo_pm = c >> 2`, 5 bits (R225). -/
def lfoPm (out : BitVec 7) : BitVec 5 := out.extractLsb' 2 5

/-- `lfo_am`: the tremolo triangle, even values `0 .. 126` (R225). -/
def lfoAm (out : BitVec 7) : Nat :=
  2 * (if out.getLsbD 6 then out.toNat % 64 else 63 - out.toNat % 64)

end Sys2Proof.Machine
end

