-- ==== Sys2Proof/Machine/PhaseGen.lean ====
section
/-! DEFINITION. The phase generator (`spec/46_phase_generator.md`). Sums are formed exactly on numbers and narrowed where the
rule says so. -/

namespace Sys2Proof.Machine

/-! ### Frequency and key code -/

/-- `special` of R231: the mode register selects the special frequency sets and channel 2 is in front. -/
def specialFreq (e : FsmRec) (r : Regs) : Bool := r.glob.ch3Mode != 0 && e.ch3Sel

/-- The special set that serves a position: set 1 OP1, set 0 OP3, set 2 OP2; OP4 has none (R231). -/
def specialSet (p : Fin 4) : Option (Fin 3) :=
  match p.val with
  | 0 => some 1
  | 1 => some 0
  | 2 => some 2
  | _ => none

/-- The frequency number and block `(F, B)` of slot `s` (R231). -/
def freqOf (e : FsmRec) (r : Regs) (s : Fin 24) : BitVec 11 × BitVec 3 :=
  let c := chanOf s
  if specialFreq e r then
    match specialSet (posOf s) with
    | some i => (r.chan.fnum3[i], r.chan.block3[i])
    | none => (r.chan.fnum[c], r.chan.block[c])
  else (r.chan.fnum[c], r.chan.block[c])

/-- `kcode = {B, FN_NOTE[F >> 7]}` (R232). -/
def keyCode (c : Config) (f : BitVec 11) (b : BitVec 3) : Nat := 4 * b.toNat + entry c.fnNote (f.toNat / 128)

/-! ### Vibrato (R233, R234) -/

/-- `l` of R234: the low four bits of `lfo_pm`, folded to `0 .. 7`. -/
def vibratoIndex (pm : BitVec 5) : Nat :=
  let l := pm.toNat % 16
  if 8 ≤ l then 15 - l else l

/-- `fm` of R234. -/
def vibratoDepth (c : Config) (f : BitVec 11) (pm : BitVec 5) (v : BitVec 3) : Nat :=
  let fh := f.toNat / 16
  let l := vibratoIndex pm
  let fm := fh >>> entry2 c.pmSh1 v.toNat l + fh >>> entry2 c.pmSh2 v.toNat l
  (if 5 < v.toNat then fm <<< (v.toNat - 5) else fm) / 4

/-- `f12'` of R234: the doubled frequency number displaced, modulo 4096. -/
def vibratoFreq (c : Config) (f : BitVec 11) (pm : BitVec 5) (v : BitVec 3) : Nat :=
  let f12 : Int := 2 * f.toNat
  let fm : Int := vibratoDepth c f pm v
  wrap 12 (if pm.getLsbD 4 then f12 - fm else f12 + fm)

/-! ### Base frequency, detune, multiplier -/

/-- `base` (R237). -/
def baseFreq (f12 : Nat) (b : BitVec 3) : Nat := (f12 <<< b.toNat) / 4

/-- `det` (R238, R239). -/
def detune (c : Config) (kcode : Nat) (dt : BitVec 3) : Nat :=
  let a := detuneAmount dt
  if a = 0 then 0
  else
    let k := min kcode 28
    let sum := k / 4 + 9 + ((if a = 3 then 1 else 0) ||| (a &&& 2))
    entry c.detuneBase (4 * (sum % 2) + k % 4) >>> (9 - sum / 2)

/-- `base'` (R238): detuned, modulo `2^17`. -/
def detuned (base det : Nat) (dt : BitVec 3) : Nat :=
  wrap 17 (if detuneNeg dt then (base : Int) - det else base + det)

/-- `inc` (R240): the increment of a slot from its frequency, detune and multiplier fields, vibrato and key code. -/
def phaseInc (c : Config) (f : BitVec 11) (b : BitVec 3) (dt : BitVec 3) (mul : BitVec 4) (pm : BitVec 5)
    (pms : BitVec 3) : BitVec 20 :=
  let base := baseFreq (vibratoFreq c f pm pms) b
  let base' := detuned base (detune c (keyCode c f b) dt) dt
  BitVec.ofNat 20 (base' * mul2 mul / 2)

/-- The increment computed at a visit of slot `s` (R231 to R240). -/
def visitInc (c : Config) (e : FsmRec) (r : Regs) (s : Fin 24) : BitVec 20 :=
  let fb := freqOf e r s
  phaseInc c fb.1 fb.2 r.slot.dt[s] r.slot.mul[s] (lfoPm r.lfo.out) r.chan.pms[chanOf s]

/-- The phase a visit of slot `s` commits (R241). -/
def visitPhase (c : Config) (e : FsmRec) (r : Regs) (s : Fin 24) : BitVec 20 :=
  if r.pg.reset[s] then 0 else r.pg.phase[s] + visitInc c e r s

end Sys2Proof.Machine
end

