-- ==== Sys2Proof/Machine/Envelope.lean ====
section
/-! DEFINITION. The envelope generator (`spec/47_envelope_generator.md`) and the key history it reads (R253,
`43_register_writes.md` R169). The steps of a visit are functions of their own, in the order of the rules; levels are numbers
`0 .. 1023` inside a visit and are narrowed where R275 and R279 narrow them. -/

namespace Sys2Proof.Machine

/-! ### Global timer (R254, R255) -/

/-- `eg_shift_lock` for a timer value (R255). -/
def egShiftLock (t : BitVec 12) : BitVec 4 := if t = 0 then 0 else BitVec.ofNat 4 (ctz 12 t.toNat + 1)

/-- `eg_low_lock` for a timer value (R255). -/
def egLowLock (t : BitVec 12) : BitVec 2 := t.extractLsb' 0 2

/-- The envelope timer and its locks at phase 1 (R254, R255). -/
def egGlobalNext (c : Config) (e : FsmRec) (g : EgRegs) : EgRegs :=
  if e.egClock then
    let q' := (g.quot.toNat + 1) % c.egPrescale
    if q' = c.egPrescale - 1 then
      let t' := g.timer + 1
      { g with quot := BitVec.ofNat 2 q', timer := t', shiftLock := egShiftLock t', lowLock := egLowLock t' }
    else { g with quot := BitVec.ofNat 2 q' }
  else g

/-! ### Rate (R259 to R264) -/

/-- `r5` (R259): the 5-bit rate field of the selected phase; release is widened to `{rr, 1}`. -/
def rateField (sel : EgState) (ar dr sr : BitVec 5) (rr : BitVec 4) : Nat :=
  match sel with
  | .attack => ar.toNat
  | .decay => dr.toNat
  | .sustain => sr.toNat
  | .release => 2 * rr.toNat + 1

/-- `ksv` (R260). -/
def keyScale (kcode : Nat) (ks : BitVec 2) : Nat := kcode >>> (ks.toNat ^^^ 3)

/-- `rate` (R261). -/
def effectiveRate (r5 ksv : Nat) : Nat := min (2 * r5 + ksv) 63

/-- `ratemax` (R261). -/
def rateMax (rate : Nat) : Bool := rate / 2 == 31

/-- `stp` (R263, R264): the increment code, `0 .. 4`. `window` says that the visit is a stepping visit (R256). -/
def stepCode (c : Config) (window : Bool) (r5 rate : Nat) (shiftLock : BitVec 4) (lowLock : BitVec 2) : Nat :=
  if r5 = 0 ∨ window = false then 0
  else if rate < 48 then
    let sum := (rate / 4 + shiftLock.toNat) % 16
    if sum = 12 then 1 else if sum = 13 then rate / 2 % 2 else if sum = 14 then rate % 2 else 0
  else min (entry2 c.egStepHi (rate % 4) lowLock.toNat + rate / 4 - 11) 4

/-! ### Level step (R266 to R275) -/

/-- `att(lvl, k) = -ceil(((lvl + 1) * 2^k) / 32)` (R267). -/
def att (lvl k : Nat) : Int := -(((lvl + 1) * 2 ^ k + 31) / 32 : Nat)

/-- `lin(k) = 2^(k-1) * (ssg_en ? 4 : 1)` (R271). -/
def lin (ssgEn : Bool) (k : Nat) : Int := 2 ^ (k - 1) * (if ssgEn then 4 else 1)

/-- `eg_off` (R266). -/
def egOff (ssgEn : Bool) (lvl : Nat) : Bool := if ssgEn then lvl / 512 % 2 == 1 else lvl / 16 % 64 == 63

/-- What a visit reads of its slot: the key wires, the level and state, the SSG-EG flags of the previous visit, the rate
results. -/
structure EgVisit where
  /-- `nkon = kon_latch[s].cur` (R253). -/
  nkon : Bool
  /-- `okon = kon_prev[s].cur` (R253). -/
  okon : Bool
  level : Nat
  state : EgState
  ssg : BitVec 4
  dir : Bool
  inv : Bool
  pgrst : Bool
  rep : Bool
  holdup : Bool
  sl : BitVec 4
  ratemax : Bool
  stp : Nat
deriving DecidableEq, Repr

namespace EgVisit

/-- `ssg_en` (R266). -/
def ssgEn (v : EgVisit) : Bool := v.ssg.getLsbD 3

/-- `kon_edge` (R257). -/
def konEdge (v : EgVisit) : Bool := v.nkon && !v.okon

/-- `kon_event` (R257). -/
def konEvent (v : EgVisit) : Bool := v.konEdge || (v.okon && v.rep)

/-- `koff_event` (R257). -/
def koffEvent (v : EgVisit) : Bool := v.okon && !v.nkon

/-- `lvl`, the working level (R266). -/
def lvl (v : EgVisit) : Nat := if v.koffEvent && v.inv then wrap 10 (512 - (v.level : Int)) else v.level

/-- `eg_off` of the visit (R266). -/
def off (v : EgVisit) : Bool := egOff v.ssgEn v.lvl

/-- The linear increment, if the slot may step (R271, R272). -/
def linInc (v : EgVisit) : Int := if !v.off && v.stp != 0 then lin v.ssgEn v.stp else 0

/-- R269 to R272: the next state, the level the increment is added to, and the increment, before key-off and envelope off. -/
def levelStep (v : EgVisit) : EgState × Nat × Int :=
  if v.konEvent then
    if v.ratemax then (.attack, 0, 0)
    else if v.state = .attack ∧ v.lvl ≠ 0 ∧ v.stp ≠ 0 ∧ v.nkon then (.attack, v.lvl, att v.lvl v.stp)
    else (.attack, v.lvl, 0)
  else
    match v.state with
    | .attack =>
      if v.lvl = 0 then (.decay, v.lvl, 0)
      else if v.stp ≠ 0 ∧ v.ratemax = false ∧ v.nkon then (.attack, v.lvl, att v.lvl v.stp)
      else (.attack, v.lvl, 0)
    | .decay =>
      if v.lvl / 16 = 2 * sl5 v.sl then (.sustain, v.lvl, 0) else (.decay, v.lvl, v.linInc)
    | .sustain => (.sustain, v.lvl, v.linInc)
    | .release => (.release, v.lvl, v.linInc)

/-- R274: the drop to full attenuation. -/
def drops (v : EgVisit) : Bool := !v.konEvent && !v.holdup && v.state != .attack && v.off

/-- `next_state` (R269 to R274). -/
def nextState (v : EgVisit) : EgState :=
  if v.drops then .release
  else if !v.konEvent && !v.nkon then .release
  else v.levelStep.1

/-- `L'`, the new level (R275). -/
def newLevel (v : EgVisit) : BitVec 10 :=
  BitVec.ofInt 10 ((if v.drops then (0x3FF : Int) else v.levelStep.2.1) + v.levelStep.2.2)

/-! #### SSG-EG (R276) -/

/-- Bit 9 of the new level, in an SSG-EG slot. -/
def top (v : EgVisit) : Bool := v.ssgEn && v.newLevel.getLsbD 9

/-- `ssg_pgrst`. -/
def nextPgrst (v : EgVisit) : Bool := v.top && v.ssg.extractLsb' 0 2 == 0

/-- `ssg_repeat`. -/
def nextRepeat (v : EgVisit) : Bool := v.top && !v.ssg.getLsbD 0

/-- `ssg_holdup`. -/
def nextHoldup (v : EgVisit) : Bool :=
  v.ssgEn && v.nkon && (v.ssg.extractLsb' 0 3 == 5 || v.ssg.extractLsb' 0 3 == 3)

/-- `ssg_dir`. -/
def nextDir (v : EgVisit) : Bool :=
  v.ssgEn && v.nkon &&
    (if v.top && v.ssg.extractLsb' 0 2 == 2 then !v.dir
      else if v.top && v.ssg.extractLsb' 0 2 == 3 then true
      else v.dir)

/-- `ssg_inv`. -/
def nextInv (v : EgVisit) : Bool := (v.nextDir ^^ (v.ssg.getLsbD 2 && v.ssgEn)) && v.nkon

/-! #### Output (R278, R279) -/

/-- `lv` (R278). -/
def outLevel (v : EgVisit) : Nat := if v.inv then wrap 10 (512 - (v.newLevel.toNat : Int)) else v.newLevel.toNat

end EgVisit

/-- `amv` (R278): the tremolo contribution. -/
def tremolo (c : Config) (am : Bool) (ams : BitVec 2) (out : BitVec 7) : Nat :=
  if am then lfoAm out >>> entry c.egAmShift ams.toNat else 0

/-- `eg_out` (R279): saturating at the maximum attenuation. -/
def egOutValue (lv amv : Nat) (tl : BitVec 7) : BitVec 10 := BitVec.ofNat 10 (satU 10 (lv + amv + 8 * tl.toNat))

/-! ### A visit of slot `s` -/

/-- The rate the visit uses: `r5` and `rate` (R259 to R262). -/
def visitRate (c : Config) (e : FsmRec) (r : Regs) (s : Fin 24) : Nat × Nat :=
  let nkon := r.key.konLatch[s]
  let okon := r.key.konPrev[s]
  let event := (nkon && !okon) || (okon && r.eg.ssgRepeat[s])
  let sel := if event then .attack else r.eg.state[s]
  let r5 := rateField sel r.slot.ar[s] r.slot.dr[s] r.slot.sr[s] r.slot.rr[s]
  let fb := freqOf e r s
  (r5, effectiveRate r5 (keyScale (keyCode c fb.1 fb.2) r.slot.ks[s]))

/-- What the visit of slot `s` reads (R253, R257 to R266). -/
def egVisit (c : Config) (e : FsmRec) (r : Regs) (s : Fin 24) : EgVisit :=
  let rt := visitRate c e r s
  { nkon := r.key.konLatch[s]
    okon := r.key.konPrev[s]
    level := r.eg.level[s].toNat
    state := r.eg.state[s]
    ssg := r.slot.ssg[s]
    dir := r.eg.ssgDir[s]
    inv := r.eg.ssgInv[s]
    pgrst := r.eg.ssgPgrst[s]
    rep := r.eg.ssgRepeat[s]
    holdup := r.eg.ssgHoldup[s]
    sl := r.slot.sl[s]
    ratemax := rateMax rt.2
    stp := stepCode c (r.eg.quot.toNat == c.egPrescale - 1) rt.1 rt.2 r.eg.shiftLock r.eg.lowLock }

/-- `eg_out` of the visit (R278, R279). -/
def visitEgOut (c : Config) (e : FsmRec) (r : Regs) (s : Fin 24) : BitVec 10 :=
  egOutValue (egVisit c e r s).outLevel (tremolo c r.slot.am[s] r.chan.ams[chanOf s] r.lfo.out) r.slot.tl[s]

/-- The envelope generator at phase 1: the visited slot (R250, R275 to R279) and the global timer. -/
def egNext (c : Config) (e : FsmRec) (r : Regs) : EgRegs :=
  let g := egGlobalNext c e r.eg
  match visited e r with
  | none => g
  | some s =>
    let v := egVisit c e r s
    { g with
      level := setAt g.level s v.newLevel
      state := setAt g.state s v.nextState
      out := setAt g.out s (visitEgOut c e r s)
      ssgDir := setAt g.ssgDir s v.nextDir
      ssgInv := setAt g.ssgInv s v.nextInv
      ssgPgrst := setAt g.ssgPgrst s v.nextPgrst
      ssgRepeat := setAt g.ssgRepeat s v.nextRepeat
      ssgHoldup := setAt g.ssgHoldup s v.nextHoldup }

/-- The phase generator at phase 1: the visited slot's phase and increment (R230, R241), and the restart request the
envelope generator leaves for its next visit (R258). -/
def pgNext (c : Config) (e : FsmRec) (r : Regs) : PgRegs :=
  match visited e r with
  | none => r.pg
  | some s =>
    let v := egVisit c e r s
    { phase := setAt r.pg.phase s (visitPhase c e r s)
      inc := setAt r.pg.inc s (visitInc c e r s)
      reset := setAt r.pg.reset s (v.konEdge || v.pgrst) }

end Sys2Proof.Machine
end

