-- ==== Sys2Proof/Machine/Prescaler.lean ====
section
/-! DEFINITION. The clock prescaler and the reset synchroniser (`spec/40_clock_prescaler.md`). -/

namespace Sys2Proof.Machine

namespace State

/-- R100 (1), R101: shift the sampled clock level into `osc_hist`. -/
def detectEdge (s : State) : State :=
  { s with raw := { s.raw with oscHist := s.raw.oscHist.extractLsb' 0 1 ++ BitVec.ofBool s.pins.clock } }

/-- `rise`: the newer sample is 1 and the older 0 (R101). -/
def rise (s : State) : Bool := s.raw.oscHist == 0b01

/-- `fall`: detected and used by nothing (R101). -/
def fall (s : State) : Bool := s.raw.oscHist == 0b10

/-- Phase 1 occurs in this sample (R102). `presc_cnt` is read before its update. -/
def phase1Event (s : State) : Bool := s.rise && s.raw.prescCnt == 0

/-- Phase 2 occurs in this sample (R102). -/
def phase2Event (s : State) : Bool := s.rise && s.raw.prescCnt == s.cfg.prescPeriod / 2

/-- The variant has divided clocks (R107). -/
def hasDclk (s : State) : Bool := s.cfg.variant == .stereo

/-- Divided clock 1 occurs in this sample (R108). -/
def dclk1Event (s : State) : Bool := s.hasDclk && s.rise && s.raw.dclkCnt == 0

/-- Divided clock 2 occurs in this sample (R108). -/
def dclk2Event (s : State) : Bool := s.hasDclk && s.rise && s.raw.dclkCnt == s.cfg.dclkPeriod / 2

/-- The counter updates of R102 and R108, made after every event of the sample has been decided. -/
def advanceClocks (s : State) : State :=
  if s.rise then
    { s with
      raw :=
        { s.raw with
          prescCnt := (s.raw.prescCnt + 1) % s.cfg.prescPeriod
          dclkCnt := if s.hasDclk then (s.raw.dclkCnt + 1) % s.cfg.dclkPeriod else s.raw.dclkCnt } }
  else s

end State

/-- R109: the reset pairs at phase 1; `pin` is `In.reset`. -/
def rstNext (c : Config) (pin : Bool) (r : Regs) : RstRegs :=
  { ic := pin, rstSr := (2 * r.rst.rstSr + bit pin) % 2 ^ c.resetDebounce }

end Sys2Proof.Machine
end

