-- ==== Sys2Proof/Machine/Timers.lean ====
section
/-! DEFINITION. The two timers and CSM keying (`spec/60_exceptions.md` R334 to R346), and the key history they feed
(`47_envelope_generator.md` R253, `43_register_writes.md` R169). -/

namespace Sys2Proof.Machine

/-! ### Timer A -/

/-- `ta_ev`, the load event (R335). -/
def taEvent (e : FsmRec) (r : Regs) : Bool := r.tmr.taOvf || (e.tmrCoarse && r.glob.taLoad && !r.tmr.taLoadLock)

/-- `t` of R336, 11 bits. -/
def taCount (e : FsmRec) (r : Regs) : Nat :=
  (if r.tmr.taLoadLatch then r.glob.taReload.toNat else r.tmr.taCnt.toNat) + bit (e.tmrFine && r.tmr.taLoadLock)

/-- The timer A flag (R337, R338). -/
def taFlagNext (r : Regs) : Bool := !r.glob.taReset && (r.tmr.taFlag || (r.tmr.taOvf && r.glob.taEnable))

/-! ### Timer B -/

/-- The load event of timer B (R340). -/
def tbEvent (e : FsmRec) (r : Regs) : Bool := r.tmr.tbOvf || (e.tmrCoarse && r.glob.tbLoad && !r.tmr.tbLoadLock)

/-- `t` of R340, 9 bits: counts when the sub-counter wraps. -/
def tbCount (e : FsmRec) (r : Regs) : Nat :=
  (if r.tmr.tbLoadLatch then r.glob.tbReload.toNat else r.tmr.tbCnt.toNat)
    + bit (e.tmrFine && r.tmr.tbSub == 15 && r.tmr.tbLoadLock)

/-- The timer B flag (R338, R341). -/
def tbFlagNext (r : Regs) : Bool := !r.glob.tbReset && (r.tmr.tbFlag || (r.tmr.tbOvf && r.glob.tbEnable))

/-- Both timers at phase 1 (R335 to R341). -/
def tmrNext (e : FsmRec) (r : Regs) : TimerRegs :=
  { taCnt := BitVec.ofNat 10 (taCount e r)
    taLoadLock := if e.tmrCoarse then r.glob.taLoad else r.tmr.taLoadLock
    taLoadLatch := taEvent e r
    taOvf := (taCount e r).testBit 10
    taFlag := taFlagNext r
    tbCnt := BitVec.ofNat 8 (tbCount e r)
    tbSub := if e.tmrFine then r.tmr.tbSub + 1 else r.tmr.tbSub
    tbLoadLock := if e.tmrCoarse then r.glob.tbLoad else r.tmr.tbLoadLock
    tbLoadLatch := tbEvent e r
    tbOvf := (tbCount e r).testBit 8
    tbFlag := tbFlagNext r }

/-- The global mode registers at phase 1, before any register write: the two reset requests clear themselves (R338), the
rest holds. -/
def globNext (r : Regs) : GlobRegs := { r.glob with taReset := false, tbReset := false }

/-! ### CSM keying and key history -/

/-- `csm_mode` (R345). -/
def csmMode (r : Regs) : Bool := r.glob.ch3Mode == 2

/-- `r` of R345: a key-on event is waiting or arrives. A request that waits when `csm_mode` becomes 0 is still served at the next
coarse tick, as R345's formula says; R346's last sentence would drop it (DESIGN CHOICE, log entry 24). -/
def csmPending (e : FsmRec) (r : Regs) : Bool := r.key.csmReq || (taEvent e r && csmMode r)

/-- The key-on distribution of R169 for the visited slot. -/
def konRegNext (r : Regs) (s : Fin 24) : Vector Bool 24 :=
  if konCode (chanOf s) = r.glob.konCh.toNat then setAt r.key.konReg s (r.glob.konOp.getLsbD (kbit (posOf s)))
  else r.key.konReg

/-- The CSM merge seen by slot `s` (R253): the synthetic key-on, on the slots of channel 2. -/
def csmMerge (r : Regs) (s : Fin 24) : Bool := r.key.csmKon && (chanOf s).val == 2

/-- The key state at phase 1 (R169, R253, R345). -/
def keyNext (e : FsmRec) (r : Regs) : KeyRegs :=
  let k :=
    { r.key with
      csmKon := if e.tmrCoarse then csmPending e r else r.key.csmKon
      csmReq := !e.tmrCoarse && csmPending e r }
  match visited e r with
  | none => k
  | some s =>
    { k with
      konReg := konRegNext r s
      konLatch := setAt r.key.konLatch s (r.key.konReg[s] || csmMerge r s)
      konCsm := setAt r.key.konCsm s (csmMerge r s)
      konPrev := setAt r.key.konPrev s r.key.konLatch[s] }

end Sys2Proof.Machine
end

