-- ==== Sys2Proof/Machine/Tick.lean ====
section
/-! DEFINITION. The pieces of one oscillator sample that `step` puts together (`spec/40_clock_prescaler.md` R100): taking the
input record, fetching the bus operation and the register write of the tick, phase 1 of every pipeline, the output record;
and the placing of an instruction where the next step fetches it. -/

namespace Sys2Proof.Machine

/-- Go on with `f` where the outcome is a next state; a fault or a refusal stays. -/
def andThen (o : Host.Outcome State Fault Refusal) (f : State → Host.Outcome State Fault Refusal) :
    Host.Outcome State Fault Refusal :=
  match o with
  | .next s => f s
  | .fault r => .fault r
  | .refused r => .refused r

/-- Which event of a tick carries a register write out (`43_register_writes.md`, the "when" of its rules). -/
inductive WriteClass where
  /-- The global write pulse `gw` (R145, R160): global registers, the two holding latches, reserved addresses. -/
  | pulse
  /-- The operator match `om` (R147). -/
  | operator
  /-- The channel match `cm` (R147). -/
  | channel
deriving DecidableEq, Repr

/-- The class of a register write. (A bus operation is none; it is listed with the pulse.) -/
def writeClass : Instr → WriteClass
  | .dtMul _ _ _ _ | .tl _ _ _ _ | .ksAr _ _ _ _ | .amDr _ _ _ _ | .sr _ _ _ _ | .slRr _ _ _ _ | .ssgeg _ _ _ _ => .operator
  | .fnumLo _ _ _ | .fnum3Lo _ _ | .fbAlg _ _ _ | .panLfo _ _ _ => .channel
  | .idle _ | .waddr _ _ _ | .wdata _ _ _ | .rstat | .rfloat _ => .pulse
  | .test1 _ | .lfo _ | .reserved23 _ | .taHi _ | .taLo _ | .tb _ | .mode _ | .keyon _ | .reserved29 _ | .dacdata _
  | .dacen _ | .test2 _ => .pulse
  | .fnumHi _ _ _ | .fnum3Hi _ _ | .reserved _ _ _ => .pulse

/-- Every pair's `next` at phase 1, before the register write of the tick and the reset forcing (R100 step 4). -/
def phase1Regs (s : State) : Regs :=
  let c := s.cfg
  let r := s.cur
  let e := enables c r
  { rst := rstNext c s.pins.reset r
    scan := scanNext c e r
    bus := busNext s
    glob := globNext r
    slot := r.slot
    chan := r.chan
    key := keyNext e r
    eg := egNext c e r
    pg := pgNext c e r
    lfo := lfoNext c e r
    op := opNext c e r
    acc := accNext c e r
    tmr := tmrNext e r }

namespace State

/-! ### Input and output records -/

/-- The input record of the next sample: the host's next one; with none to come, an idle bus and a clock that alternates
(log entry 1). -/
def nextPins (s : State) : Pins :=
  match s.host with
  | p :: _ => p
  | [] => Pins.idle (!s.pins.clock)

/-- Take the input record of the sample. -/
def takeInput (s : State) : State := { s with pins := s.nextPins, host := s.host.tail }

/-- The read strobe `io_rd` on the pins (R121). -/
def ioRd (s : State) : Bool := s.pins.cs && s.pins.rd

/-- The variant's sample outputs (`49_accumulator_dac.md` R320, R322), 0 during reset (R323): the four serial lines are forced
there, and `mono_out.cur`, which the first tick of a reset still holds, is not shown (log entry 23). -/
def audio (s : State) : Audio :=
  match s.cfg.variant with
  | .mono => .mono (if s.cur.rst.ic then 0 else s.cur.acc.monoOut)
  | .stereo => .stereo s.raw.so s.raw.wc s.raw.lrc s.raw.bck

/-- R100 (7): the output record, from the new state and the input record (R131, R320, R322). -/
def drive (s : State) : State :=
  { s with
    out :=
      { dataOut := (s.busRead s.ioRd s.pins.address).1
        dataOutEn := (s.busRead s.ioRd s.pins.address).2
        audio := s.audio } }

/-! ### Fetching the instructions of a sample -/

/-- The bus operation on the pins (`30_encoding.md` R80). -/
def busOp (s : State) : Instr := decodeBus (busWord s.pins.cs s.pins.rd s.pins.wr s.pins.address) s.pins.data

/-- The register word `{reg_bank, reg_addr}` the tick decodes. -/
def regWordCur (s : State) : BitVec 9 := regWord s.cur.bus.regBank s.cur.bus.regAddr

/-- The register write this tick carries out, if any: on the global write pulse with the bus byte, or at the operator or
channel match with `reg_data` (R145, R147, R160). -/
def pendingWrite (s : State) : Option Instr :=
  match writeClass (decodeReg s.regWordCur 0) with
  | .pulse => if globalPulse s.cur then some (decodeReg s.regWordCur s.bus) else none
  | .operator => if operatorMatch s.cur then some (decodeReg s.regWordCur s.cur.bus.regData) else none
  | .channel => if channelMatch s.cur then some (decodeReg s.regWordCur s.cur.bus.regData) else none

/-! ### Phase 1 and the end of the sample -/

/-- Phase 1 of every pipeline: all `next` halves, and the hand-over of the write-pending latches (R100 step 4, R125). -/
def phase1 (s : State) : State :=
  { s with nxt := phase1Regs s, raw := { s.raw with waPend := false, wdPend := false } }

/-- R100 steps 5 to 7: the commit if phase 2 occurs, the serializer, the counter updates, the output record. The events
are read before the counters advance. A sample is one "with `ic.cur = 1`" for the serializer if `ic.cur` is 1 before its
commit (R362) or after it (R323) (log entry 8). -/
def finish (s : State) : State :=
  let t := if s.phase2Event then s.commit else s
  (t.serialize (s.cur.rst.ic || t.cur.rst.ic) s.dclk1Event s.dclk2Event).advanceClocks.drive

/-! ### Placing an instruction for the next step -/

/-- Place a bus operation: one input record at the head of the host's, at the clock level of the last sample, so that the
step carries out the operation and no clock event (log entry 19). -/
def placeBus (s : State) (w : BitVec 5) (data : Byte) : State :=
  { s with
    host :=
      { cs := w[4], rd := w[3], wr := w[2], address := w.extractLsb' 0 2, data := data, reset := false, test := false
        clock := s.raw.oscHist[0] } :: s.host }

/-- The scan position at which the register write of word `w` is carried out: that of its slot, or the first of its
channel (`10_state.md` R24); the present one where the write waits for no position. -/
def placePosition (s : State) (w : BitVec 9) : ScanRegs :=
  let cnt1 := w.extractLsb' 0 2
  let bank := w.extractLsb' 8 1
  match writeClass (decodeReg w 0) with
  | .pulse => s.cur.scan
  | .operator =>
    { regCnt1 := cnt1, regCnt2 := w.extractLsb' 2 2 ++ bank, fsmCnt1 := cnt1, fsmCnt2 := w.extractLsb' 2 2 ++ bank }
  | .channel =>
    { regCnt1 := cnt1, regCnt2 := (0 : BitVec 2) ++ bank, fsmCnt1 := cnt1, fsmCnt2 := (0 : BitVec 2) ++ bank }

/-- The pairs with the register write of word `w` and byte `d` about to be carried out: the address and data captured, the
write enable raised, the scan at the write's position, no reset. -/
def placeRegs (s : State) (w : BitVec 9) (d : Byte) : Regs :=
  { s.cur with
    rst := { s.cur.rst with ic := false }
    scan := s.placePosition w
    bus :=
      { s.cur.bus with
        waEn := false
        wdEn := true
        regAddr := w.extractLsb' 0 8
        regBank := w.extractLsb' 8 1
        regData := d
        dataValid := true } }

/-- Place a register write: its latches as `placeRegs` has them in both halves, the byte on the internal bus, and an idle
input record with a rising clock at a phase-1 position of the prescaler (log entry 19). -/
def placeReg (s : State) (w : BitVec 9) (d : Byte) : State :=
  { s with
    cur := s.placeRegs w d
    nxt := s.placeRegs w d
    raw := { s.raw with oscHist := 0, prescCnt := 0, dataLatch := d }
    host := Pins.idle true :: s.host }

end State

end Sys2Proof.Machine
end

