-- ==== Sys2Proof/Machine/Sample.lean ====
section
/-! DEFINITION. One oscillator sample with the instructions it carries out (`spec/40_clock_prescaler.md` R100). -/

namespace Sys2Proof.Machine

/-- Phase 1 of a sample in which it occurs: the pipelines, then the register write the tick carries out, then the reset
forcing, which overrides both (R100 step 4, R360). -/
def phase1Step (s : State) : Host.Outcome State Fault Refusal :=
  andThen
    (match s.pendingWrite with
      | some i => exec i s.phase1
      | none => .next s.phase1)
    fun t => .next t.forceReset

/-- One oscillator sample, in the order of R100: the input record and the edge detection (1), the bus operation on the pins
(2), phase 1 if the prescaler says so (3, 4), the commit, the serializer and the output record (5 to 7). -/
def sample (s : State) : Host.Outcome State Fault Refusal :=
  let s0 := s.takeInput.detectEdge
  andThen (exec s0.busOp s0) fun s1 =>
    andThen (if s1.phase1Event then phase1Step s1 else .next s1) fun s2 => .next s2.finish

end Sys2Proof.Machine
end

