-- ==== Sys2Proof/Machine/Step.lean ====
section
/-! DEFINITION. `step`: one oscillator sample (`spec/40_clock_prescaler.md` R100), and the placing of an instruction where the
next step fetches it. -/

namespace Sys2Proof.Machine

/-- One step of the machine: one oscillator sample (R100). -/
def step (s : State) : Host.Outcome State Fault Refusal := sample s

/-- The state with the instruction whose bits are `w`, numbered as `spec/opcode_table.json` numbers them, placed where the
next step fetches it (log entry 19): a `BUS` word becomes the host's next input record, a `REG` word the captured register
address of a tick that carries the write out. -/
def State.withFetchWord (s : State) (nbits w : Nat) : State :=
  match formatOfBits nbits with
  | .bus => s.placeBus (BitVec.ofNat 5 w) (BitVec.ofNat 8 (w / 2 ^ 8))
  | .reg => s.placeReg (BitVec.ofNat 9 w) (BitVec.ofNat 8 (w / 2 ^ 16))

end Sys2Proof.Machine
end

