-- ==== Sys2Proof/Machine/HostActions.lean ====
section
/-! DEFINITION. The host actions of `spec/30_encoding.md` R91 as lists of input records, for a host that drives the machine
from outside. They are the spec's own notation; no rule of the machine uses them. -/

namespace Sys2Proof.Machine

/-- One oscillator cycle: the record at clock level 0, then at level 1 (R91, R101). -/
def cycle (p : Pins) : List Pins := [{ p with clock := false }, { p with clock := true }]

/-- `n` oscillator cycles with the same pins. -/
def cycles (p : Pins) : Nat → List Pins
  | 0 => []
  | n + 1 => cycle p ++ cycles p n

/-- `WADDR b, aa`: two cycles of an address-phase write, one of release. -/
def hostWaddr (bank : BitVec 1) (addr : Byte) : List Pins :=
  cycles { Pins.idle false with cs := true, wr := true, address := bank ++ (0 : BitVec 1), data := addr } 2
    ++ cycle (Pins.idle false)

/-- `WDATA dd`: two cycles of a data-phase write, one of release; `bank` is the bank latch. -/
def hostWdata (bank : BitVec 1) (d : Byte) : List Pins :=
  cycles { Pins.idle false with cs := true, wr := true, address := bank ++ (1 : BitVec 1), data := d } 2
    ++ cycle (Pins.idle false)

/-- `RSTAT`: one cycle of a status read. -/
def hostRstat : List Pins := cycle { Pins.idle false with cs := true, rd := true }

/-- `WAIT n`: `n` ticks of idle bus. -/
def hostWait (c : Config) (n : Nat) : List Pins := cycles (Pins.idle false) (n * c.prescPeriod)

/-- `RESET n`: `n` ticks with the reset pin asserted. -/
def hostReset (c : Config) (n : Nat) : List Pins := cycles { Pins.idle false with reset := true } (n * c.prescPeriod)

/-- `REG b, aa, dd`: `WADDR b, aa; WAIT 2; WDATA dd; WAIT 34`. -/
def hostReg (c : Config) (bank : BitVec 1) (addr d : Byte) : List Pins :=
  hostWaddr bank addr ++ hostWait c 2 ++ hostWdata bank d ++ hostWait c 34

/-- `KEYON c, m`: `REG 0, 0x28, {m, 0, code(c)}`. -/
def hostKeyon (c : Config) (ch : Fin 6) (m : BitVec 4) : List Pins :=
  hostReg c 0 0x28 (m ++ BitVec.ofNat 4 (konCode ch))

/-- `KEYOFF c`: `REG 0, 0x28, {0000, 0, code(c)}`. -/
def hostKeyoff (c : Config) (ch : Fin 6) : List Pins := hostKeyon c ch 0

end Sys2Proof.Machine
end

