-- ==== Sys2Proof/Safety.lean ====
section
/-! DEFINITION. What claims say of a state and of a step: where in a tick a sample stands, the invariant of the machine, the
canonical idle state of `spec/70_reset_and_hazards.md` R362. No step of this machine stops, so a safe run is one whose every
state meets the invariant. -/

namespace Sys2Proof.Machine

namespace State

/-! ### Where a step stands in a tick -/

/-- The state in which the step's events are decided: the input record taken, the edge detected (R100 step 1). -/
def sampled (s : State) : State := s.takeInput.detectEdge

/-- The step sees a rising oscillator edge (R101). -/
def rises (s : State) : Bool := s.sampled.rise

/-- Phase 1 occurs in the step: a tick starts (R102, R103). -/
def tickStarts (s : State) : Bool := s.sampled.phase1Event

/-- Phase 2 occurs in the step: the tick ends (R102, R104). -/
def tickEnds (s : State) : Bool := s.sampled.phase2Event

end State

/-! ### Register writes -/

/-- `w` is `v` with `a` at index `k`, every other element as before (R10). -/
def WrittenAt {α : Type} {n : Nat} (v w : Vector α n) (k : Nat) (a : α) : Prop :=
  ∀ j : Fin n, w[j] = if j.val = k then a else v[j]

/-- The event of a tick that carries out the register writes of a class (R145, R147). -/
def Regs.writeOccurs (r : Regs) : WriteClass → Bool
  | .pulse => globalPulse r
  | .operator => operatorMatch r
  | .channel => channelMatch r

/-- The data byte of a register write of a class: the bus byte on the pulse, `reg_data` at a match (R147, R160). -/
def State.writeByte (s : State) : WriteClass → Byte
  | .pulse => s.bus
  | .operator => s.cur.bus.regData
  | .channel => s.cur.bus.regData

/-! ### The invariant -/

/-- `v` is a signed value of `w` bits (`00_scope.md` R7). -/
def signedIn (w : Nat) (v : Int) : Prop := -(2 ^ (w - 1)) ≤ v ∧ v ≤ 2 ^ (w - 1) - 1

/-- The scan position and the sequencer counter are the same number (`44_timing_sequencer.md` R202). -/
def ScanRegs.Locked (r : ScanRegs) : Prop := r.regCnt1 = r.fsmCnt1 ∧ r.regCnt2 = r.fsmCnt2

/-- What one half of the pairs keeps under configuration `c`. -/
structure Regs.Inv (c : Config) (r : Regs) : Prop where
  /-- R202. -/
  locked : r.scan.Locked
  /-- R23: `rst_sr` has `RESET_DEBOUNCE_N` bits. -/
  rstSr : r.rst.rstSr < 2 ^ c.resetDebounce
  /-- R27: `busy_cnt` is at most `BUSY_LEN`. -/
  busy : r.bus.busyCnt ≤ c.busyLen
  /-- R32: `eg_quot` is below `EG_PRESCALE`. -/
  quot : r.eg.quot.toNat < c.egPrescale
  /-- R255: `eg_shift_lock` is the lock of the timer value. -/
  shiftLock : r.eg.shiftLock = egShiftLock r.eg.timer
  /-- R255: `eg_low_lock` is the lock of the timer value. -/
  lowLock : r.eg.lowLock = egLowLock r.eg.timer
  /-- R253: only slots of channel 2 are ever keyed by CSM. -/
  konCsm : ∀ k : Fin 24, r.key.konCsm[k] = true → (chanOf k).val = 2
  /-- R297: an operator output is at most `(0x3FF or 0x400) << 2` in magnitude. -/
  opOut : ∀ k : Fin 24, -8188 ≤ r.op.opOut[k].toInt ∧ r.op.opOut[k].toInt ≤ 8188
  /-- R298: and so is the one before it. -/
  op1Prev : ∀ k : Fin 6, -8188 ≤ r.op.op1Prev[k].toInt ∧ r.op.op1Prev[k].toInt ≤ 8188
  /-- R312: the running sum has `W_ACC` bits. -/
  chAcc : ∀ k : Fin 6, signedIn c.accBits r.acc.chAcc[k]
  /-- R313: the finished sum has `W_ACC` bits. -/
  chOut : ∀ k : Fin 6, signedIn c.accBits r.acc.chOut[k]
  /-- R322: the mono sample has 9 bits. -/
  monoOut : signedIn 9 r.acc.monoOut
  /-- R316: the left mix has `DAC_WORD_BITS` bits. -/
  mixL : signedIn c.dacWordBits r.acc.mixL
  /-- R316: the right mix has `DAC_WORD_BITS` bits. -/
  mixR : signedIn c.dacWordBits r.acc.mixR
  /-- R319: the DAC word has `2*DAC_WORD_BITS` bits. -/
  dacWord : r.acc.dacWord < 2 ^ (2 * c.dacWordBits)

/-- The invariant of the machine. -/
structure State.Inv (s : State) : Prop where
  /-- The configuration is one the spec admits (R6, R205), with table entries within the bounds of log entry 25. -/
  cfg : s.cfg.wf = true
  /-- R22: `presc_cnt` is below `PRESC_PERIOD`. -/
  presc : s.raw.prescCnt < s.cfg.prescPeriod
  /-- R22: `dclk_cnt` is below `DCLK_PERIOD`. -/
  dclk : s.raw.dclkCnt < s.cfg.dclkPeriod
  /-- R36: the shift register has `2*DAC_WORD_BITS` bits. -/
  dacSr : s.raw.dacSr < 2 ^ (2 * s.cfg.dacWordBits)
  /-- The `cur` halves. -/
  cur : s.cur.Inv s.cfg
  /-- The `next` halves. -/
  nxt : s.nxt.Inv s.cfg
  /-- R104: outside a tick, `next = cur` for every pair. -/
  settled : s.raw.prescCnt = 0 ∨ s.cfg.prescPeriod / 2 < s.raw.prescCnt → s.nxt = s.cur

/-! ### The canonical idle state (R362) -/

/-- Every pair of the canonical idle state: its reset value, `rst_sr = 2^N - 2`. -/
def Regs.canonical (c : Config) : Regs :=
  { Regs.reset with rst := { ic := false, rstSr := 2 ^ c.resetDebounce - 2 } }

/-- The serializer latches are 0. -/
def State.SerialIdle (s : State) : Prop :=
  s.raw.dacSr = 0 ∧ s.raw.so = false ∧ s.raw.wc = false ∧ s.raw.lrc = false ∧ s.raw.bck = false

/-- The canonical idle state modulo the prescaler latches and the serializer. -/
def State.CanonicalIdle (s : State) : Prop :=
  s.cur = Regs.canonical s.cfg ∧ s.nxt = Regs.canonical s.cfg
    ∧ s.raw.dataLatch = 0 ∧ s.raw.bankLatch = 0 ∧ s.raw.waPend = false ∧ s.raw.wdPend = false
    ∧ s.raw.waPrev = false ∧ s.raw.wdPrev = false

end Sys2Proof.Machine
end

