-- ==== Sys2Proof/Certificates/Slice0/Obligations.lean ====
section
/-! DEFINITION. The statements for the provers, in the order of `OBLIGATIONS.json`. A statement about a tick is about every
step in which phase 1 occurs (`State.tickStarts`): the step answers a next state, and the `next` halves it leaves are those the
rules give. Configurations are arbitrary, or well-formed where the statement says so. -/

open Sys2Proof Sys2Proof.Machine

/-! ### Encoding -/

/-- `30_encoding.md` R80 to R89: decoding the encoding of any well-formed instruction gives the instruction back (laid out as
bytes as log entry 16 says). -/
def Obligations.DecodeAfterEncode : Prop :=
  ∀ i : Instr, i.wf = true → decode (formatOf i) (encode i) = .ok i

/-- R80 to R89: no bit of a word is dropped. The decoder answers a well-formed instruction for every pin word and every
register word, and its encoding is the word (a write's data byte included). -/
def Obligations.EncodeAfterDecode : Prop :=
  (∀ (w : BitVec 5) (data : Byte), (decodeBus w data).wf = true ∧
    ∃ data', encodeWord (decodeBus w data) = .bus w data' ∧ (w[4] = true → w[2] = true → data' = data))
  ∧ ∀ (w : BitVec 9) (d : Byte), (decodeReg w d).wf = true ∧ encodeWord (decodeReg w d) = .reg w d

/-- R85, R89: a register word decodes to `RESERVED` exactly at the reserved addresses. -/
def Obligations.ReservedExactly : Prop :=
  ∀ (bank : BitVec 1) (addr d : Byte),
    decodeReg (regWord bank addr) d = .reserved bank addr d ↔ reservedAddr bank addr = true

/-- A few words of the tables of R81 and R86 to R88, each written out bit by bit, in the byte layout of log entry 16 (sanity). -/
def Obligations.SampleWordsDecode : Prop :=
  decode .bus [0b00010110, 0x30] = .ok (.waddr false 1 0x30)
  ∧ decode .bus [0b00010101, 0x71] = .ok (.wdata false 0 0x71)
  ∧ decode .bus [0b00011000, 0] = .ok .rstat
  ∧ decode .bus [0b00011010, 0] = .ok (.rfloat 2)
  ∧ decode .bus [0b00000101, 0] = .ok (.idle 0b00101)
  ∧ decode .reg [0b00101000, 0b0, 0xF0] = .ok (.keyon 0xF0)
  ∧ decode .reg [0b01001010, 0b1, 0x7F] = .ok (.tl 1 2 2 0x7F)
  ∧ decode .reg [0b10110001, 0b1, 0x2C] = .ok (.fbAlg 1 1 0x2C)
  ∧ decode .reg [0b00110011, 0b0, 0xFF] = .ok (.reserved 0 0x33 0xFF)

/-! ### A step runs the decoded instruction -/

/-- R100: when the pins' bytes decode to `i`, the step is `exec i` on the sampled state, followed by phase 1 if it occurs and
by the end of the sample. The sampled state has the next input record (of the host's list, with none to come an idle bus and
an alternating clock: the model's choice, log entry 1) and the clock sample in the edge history. -/
def Obligations.StepRunsBusOperation : Prop :=
  (∀ (s : State) (i : Instr),
    decode .bus
      [(busWord s.nextPins.cs s.nextPins.rd s.nextPins.wr s.nextPins.address).zeroExtend 8, s.nextPins.data] = .ok i →
    step s = andThen (exec i s.sampled) fun s1 =>
      andThen (if s1.phase1Event then phase1Step s1 else .next s1) fun s2 => .next s2.finish)
  ∧ ∀ s : State,
      let p : Pins := match s.host with | p :: _ => p | [] => Pins.idle (!s.pins.clock)
      s.nextPins = p
      ∧ s.sampled =
        { s with
          pins := p
          host := s.host.tail
          raw := { s.raw with oscHist := s.raw.oscHist.extractLsb' 0 1 ++ BitVec.ofBool p.clock } }

/-- R100 step 4, R145, R147, R160: when `{reg_bank, reg_addr}` and the byte of the write's class decode to `j`, phase 1 is that
of the pipelines followed by `exec j` if the event of its class occurs in the tick, by no write otherwise; the reset forcing
comes last. -/
def Obligations.TickRunsRegisterWrite : Prop :=
  ∀ (s : State) (j : Instr) (d : Byte),
    decode .reg [s.cur.bus.regAddr, s.cur.bus.regBank.zeroExtend 8, d] = .ok j →
    d = s.writeByte (writeClass j) →
    (s.cur.writeOccurs (writeClass j) = true →
      phase1Step s = andThen (exec j s.phase1) fun t => .next t.forceReset)
    ∧ (s.cur.writeOccurs (writeClass j) = false → phase1Step s = .next s.phase1.forceReset)

/-- `10_state.md` R24, `42_register_scan.md` R141, R142: the numbering of slots and channels; the slot and the channel in front,
none at a gap position. R145, R147, `30_encoding.md` R83: when the global write pulse, the operator match and the channel match
stand. At an operator match the front slot is the slot the address names, and at a channel match the front channel is the
channel it names; neither is a gap. -/
def Obligations.FrontIsWriteTarget : Prop :=
  ∀ r : Regs,
    let a := r.bus.regAddr.toNat
    let b := r.bus.regBank.toNat
    let x := r.scan.regCnt1.toNat
    let y := r.scan.regCnt2.toNat
    (∀ (p : Fin 4) (c : Fin 6), (slotOf p c).val = 6 * p.val + c.val)
    ∧ (∀ k : Fin 24, (chanOf k).val = k.val % 6)
    ∧ (∀ k : Fin 24, r.frontSlot = some k ↔ x ≠ 3 ∧ k.val = 6 * (y / 2) + 3 * (y % 2) + x)
    ∧ (∀ c : Fin 6, r.frontChan = some c ↔ x ≠ 3 ∧ c.val = 3 * (y % 2) + x)
    ∧ (globalPulse r = true ↔ r.bus.wdEn = true ∧ r.bus.waEn = false)
    ∧ (operatorMatch r = true ↔
        r.bus.dataValid = true ∧ 0x30 ≤ a ∧ a ≤ 0x9F ∧ a % 4 ≠ 3 ∧ a % 4 = x ∧ b = y % 2 ∧ a / 4 % 4 = y / 2)
    ∧ (channelMatch r = true ↔
        r.bus.dataValid = true ∧ 0xA0 ≤ a ∧ a ≤ 0xB6 ∧ a % 4 ≠ 3 ∧ a % 4 = x ∧ b = y % 2)
    ∧ (operatorMatch r = true → ∃ k : Fin 24, r.frontSlot = some k ∧ k.val = 6 * (a / 4 % 4) + (3 * b + a % 4))
    ∧ (channelMatch r = true → ∃ k : Fin 6, r.frontChan = some k ∧ k.val = 3 * b + a % 4)

/-! ### Bus operations: what each does, and what it leaves -/

/-- `41_bus_front_end.md` R120, R124, R131: an `IDLE` clears the strobe history, shows the bus byte, drives nothing. (That a term
whose word is no idle word acts as `IDLE` too is the model's choice, log entry 17.) -/
def Obligations.IdleCompletes : Prop :=
  ∀ (p : BitVec 5) (s : State), s.cur.rst.ic = false →
    exec (.idle p) s = .next
      { s with
        raw := { s.raw with waPrev := false, wdPrev := false }
        out := { s.out with dataOut := s.raw.dataLatch, dataOutEn := false } }

/-- R122, R124, R131, R134: a `WADDR` latches the byte and the bank, and raises `wa_pend` at the strobe's first sample; its
read half, if any, drives the data outputs and nothing else. -/
def Obligations.WaddrCompletes : Prop :=
  ∀ (rd : Bool) (bank : BitVec 1) (data : Byte) (s : State), s.cur.rst.ic = false →
    ∃ o : Out, exec (.waddr rd bank data) s = .next
        { s with
          raw :=
            { s.raw with
              dataLatch := data, bankLatch := bank, waPend := s.raw.waPend || !s.raw.waPrev, waPrev := true
              wdPrev := false }
          out := o }
      ∧ o.audio = s.out.audio
      ∧ (rd = false → o.dataOut = data ∧ o.dataOutEn = false)
      ∧ (rd = true → bank = 0 → o.dataOutEn = true ∧ (s.cur.tReadSel = false → o.dataOut = s.cur.status))
      ∧ (rd = true → bank = 1 → o.dataOutEn = false ∧ (s.cfg.floatBus = .bus → o.dataOut = data))

/-- R123, R124, R131, R134: a `WDATA` latches the byte, raises `wd_pend` at the strobe's first sample and leaves the bank. -/
def Obligations.WdataCompletes : Prop :=
  ∀ (rd : Bool) (a1 : BitVec 1) (data : Byte) (s : State), s.cur.rst.ic = false →
    ∃ o : Out, exec (.wdata rd a1 data) s = .next
        { s with
          raw :=
            { s.raw with
              dataLatch := data, wdPend := s.raw.wdPend || !s.raw.wdPrev, wdPrev := true, waPrev := false }
          out := o }
      ∧ o.audio = s.out.audio ∧ o.dataOutEn = false
      ∧ (rd = false → o.dataOut = data)
      ∧ (rd = true → s.cfg.floatBus = .bus → o.dataOut = data)

/-- R129, R130: an `RSTAT` drives `{busy, 0, 0, 0, 0, 0, tb_flag, ta_flag}`, or the test tap in test-read mode (a free value,
log entry 5); it changes the strobe history and no other state. In reset it drives 0x00. -/
def Obligations.RstatCompletes : Prop :=
  (∀ s : State, s.cur.rst.ic = false →
    ∃ b : Byte, exec .rstat s = .next
        { s with
          raw := { s.raw with waPrev := false, wdPrev := false }
          out := { s.out with dataOut := b, dataOutEn := true } }
      ∧ (s.cur.glob.test21[6] = false →
          b = BitVec.ofBool (s.cur.bus.busyCnt != 0) ++ (0 : BitVec 5) ++ BitVec.ofBool s.cur.tmr.tbFlag
            ++ BitVec.ofBool s.cur.tmr.taFlag)
      ∧ (s.cur.glob.test21[6] = true → b = Config.testTap s.cur))
  ∧ ∀ s : State, s.cur.rst.ic = true → s.cur.glob.test21[6] = false →
      ∃ t : State, exec .rstat s = .next t ∧ t.out.dataOut = 0 ∧ t.out.dataOutEn = true
        ∧ t.cur = s.cur ∧ t.nxt = s.nxt

/-- R133: an `RFLOAT` shows the fallback byte (of the three forms of log entry 6) and drives nothing. Address 0 is no
`RFLOAT`; the term with address 0 acts as `RSTAT` (the model's choice, log entry 17). -/
def Obligations.RfloatCompletes : Prop :=
  ∀ (a : BitVec 2) (s : State), s.cur.rst.ic = false →
    (a ≠ 0 → ∃ b : Byte, exec (.rfloat a) s = .next
        { s with
          raw := { s.raw with waPrev := false, wdPrev := false }
          out := { s.out with dataOut := b, dataOutEn := false } }
      ∧ (s.cfg.floatBus = .bus → b = s.raw.dataLatch) ∧ (∀ x, s.cfg.floatBus = .fixed x → b = x)
      ∧ (∀ n, s.cfg.floatBus = .unknown n → b = Config.floatTap n))
    ∧ exec (.rfloat 0) s = exec .rstat s

/-- R121 to R124: the operation decoded from the pins does what the strobe expressions say, in reset and out of it, and
changes no pair, no clock latch and no serializer latch. -/
def Obligations.BusOperationFollowsPins : Prop :=
  ∀ s : State,
    let wa := s.pins.cs && s.pins.wr && !s.pins.address[0]
    let wd := s.pins.cs && s.pins.wr && s.pins.address[0]
    ∃ o : Out, exec s.busOp s = .next
      { s with
        raw :=
          if s.cur.rst.ic then
            { s.raw with dataLatch := 0, bankLatch := 0, waPend := false, wdPend := false, waPrev := wa, wdPrev := wd }
          else
            { s.raw with
              dataLatch := if wa || wd then s.pins.data else s.raw.dataLatch
              bankLatch := if wa then s.pins.address.extractLsb' 1 1 else s.raw.bankLatch
              waPend := s.raw.waPend || (wa && !s.raw.waPrev)
              wdPend := s.raw.wdPend || (wd && !s.raw.wdPrev)
              waPrev := wa
              wdPrev := wd }
        out := o }

/-! ### Register writes: what each does, and what it leaves -/

/-- `43_register_writes.md` R162, R163, R166, R168, R170 to R172: `TEST1`, `LFO`, `TB`, `KEYON`, `DACDATA`, `DACEN`, `TEST2`
write their fields of the global mode registers and nothing else. -/
def Obligations.PlainGlobalWritesComplete : Prop :=
  ∀ (d : Byte) (s : State),
    let put (g : GlobRegs) : Host.Outcome State Fault Refusal := .next { s with nxt := { s.nxt with glob := g } }
    exec (.test1 d) s = put { s.nxt.glob with test21 := d }
    ∧ exec (.lfo d) s = put { s.nxt.glob with lfoEn := d[3], lfoFreq := d.extractLsb' 0 3 }
    ∧ exec (.tb d) s = put { s.nxt.glob with tbReload := d }
    ∧ exec (.keyon d) s = put { s.nxt.glob with konOp := d.extractLsb' 4 4, konCh := d.extractLsb' 0 3 }
    ∧ exec (.dacdata d) s = put { s.nxt.glob with dacData := d }
    ∧ exec (.dacen d) s = put { s.nxt.glob with dacEn := d[7] }
    ∧ exec (.test2 d) s = put { s.nxt.glob with test2c := d }

/-- R164, R165: `TA_HI` and `TA_LO` write the upper eight and the lower two bits of `ta_reload`, keep the other bits of
`ta_reload.cur`, and change nothing else. -/
def Obligations.TimerReloadWritesComplete : Prop :=
  ∀ (d : Byte) (s : State),
    (∃ v : BitVec 10, exec (.taHi d) s = .next { s with nxt := { s.nxt with glob := { s.nxt.glob with taReload := v } } }
      ∧ v.toNat = 4 * d.toNat + s.cur.glob.taReload.toNat % 4)
    ∧ ∃ v : BitVec 10, exec (.taLo d) s = .next { s with nxt := { s.nxt with glob := { s.nxt.glob with taReload := v } } }
      ∧ v.toNat = 4 * (s.cur.glob.taReload.toNat / 4) + d.toNat % 4

/-- R167: `MODE` writes the eight mode bits and nothing else. -/
def Obligations.ModeWriteCompletes : Prop :=
  ∀ (d : Byte) (s : State), exec (.mode d) s = .next
    { s with
      nxt :=
        { s.nxt with
          glob :=
            { s.nxt.glob with
              ch3Mode := d.extractLsb' 6 2, tbReset := d[5], taReset := d[4], tbEnable := d[3], taEnable := d[2]
              tbLoad := d[1], taLoad := d[0] } } }

/-- R174 to R180, `30_encoding.md` R83: each operator-slot write puts its bit fields of the data byte into its arrays at slot
`6*pos + 3*bank + cib`, and changes nothing else. -/
def Obligations.SlotWritesComplete : Prop :=
  ∀ (bank : BitVec 1) (pos cib : BitVec 2) (d : Byte) (s : State), cib ≠ 3 →
    let k := 6 * pos.toNat + (3 * bank.toNat + cib.toNat)
    let f := s.nxt.slot
    let put (g : SlotRegs) : Host.Outcome State Fault Refusal := .next { s with nxt := { s.nxt with slot := g } }
    (∃ x y, exec (.dtMul bank pos cib d) s = put { f with dt := x, mul := y }
      ∧ WrittenAt f.dt x k (d.extractLsb' 4 3) ∧ WrittenAt f.mul y k (d.extractLsb' 0 4))
    ∧ (∃ x, exec (.tl bank pos cib d) s = put { f with tl := x } ∧ WrittenAt f.tl x k (d.extractLsb' 0 7))
    ∧ (∃ x y, exec (.ksAr bank pos cib d) s = put { f with ks := x, ar := y }
      ∧ WrittenAt f.ks x k (d.extractLsb' 6 2) ∧ WrittenAt f.ar y k (d.extractLsb' 0 5))
    ∧ (∃ x y, exec (.amDr bank pos cib d) s = put { f with am := x, dr := y }
      ∧ WrittenAt f.am x k d[7] ∧ WrittenAt f.dr y k (d.extractLsb' 0 5))
    ∧ (∃ x, exec (.sr bank pos cib d) s = put { f with sr := x } ∧ WrittenAt f.sr x k (d.extractLsb' 0 5))
    ∧ (∃ x y, exec (.slRr bank pos cib d) s = put { f with sl := x, rr := y }
      ∧ WrittenAt f.sl x k (d.extractLsb' 4 4) ∧ WrittenAt f.rr y k (d.extractLsb' 0 4))
    ∧ ∃ x, exec (.ssgeg bank pos cib d) s = put { f with ssg := x } ∧ WrittenAt f.ssg x k (d.extractLsb' 0 4)

/-- R181 to R186, R83: each channel write puts its bit fields into its arrays at channel `3*bank + cib` (set `cib` for the
special channel), the high bits of a frequency from the holding latch; `FNUM_HI` and `FNUM3_HI` write their holding latch;
nothing else changes. -/
def Obligations.ChannelWritesComplete : Prop :=
  ∀ (bank : BitVec 1) (cib : BitVec 2) (d : Byte) (s : State), cib ≠ 3 →
    let k := 3 * bank.toNat + cib.toNat
    let f := s.nxt.chan
    let put (g : ChanRegs) : Host.Outcome State Fault Refusal := .next { s with nxt := { s.nxt with chan := g } }
    (∃ x y, exec (.fnumLo bank cib d) s = put { f with fnum := x, block := y }
      ∧ WrittenAt f.fnum x k (s.cur.chan.fhiLatch.extractLsb' 0 3 ++ d)
      ∧ WrittenAt f.block y k (s.cur.chan.fhiLatch.extractLsb' 3 3))
    ∧ (∃ x y, exec (.fnum3Lo cib d) s = put { f with fnum3 := x, block3 := y }
      ∧ WrittenAt f.fnum3 x cib.toNat (s.cur.chan.fhi3Latch.extractLsb' 0 3 ++ d)
      ∧ WrittenAt f.block3 y cib.toNat (s.cur.chan.fhi3Latch.extractLsb' 3 3))
    ∧ (∃ x y, exec (.fbAlg bank cib d) s = put { f with fb := x, alg := y }
      ∧ WrittenAt f.fb x k (d.extractLsb' 3 3) ∧ WrittenAt f.alg y k (d.extractLsb' 0 3))
    ∧ (∃ x y z w, exec (.panLfo bank cib d) s = put { f with panL := x, panR := y, ams := z, pms := w }
      ∧ WrittenAt f.panL x k d[7] ∧ WrittenAt f.panR y k d[6] ∧ WrittenAt f.ams z k (d.extractLsb' 4 2)
      ∧ WrittenAt f.pms w k (d.extractLsb' 0 3))
    ∧ exec (.fnumHi bank cib d) s = put { f with fhiLatch := d.extractLsb' 0 6 }
    ∧ exec (.fnum3Hi cib d) s = put { f with fhi3Latch := d.extractLsb' 0 6 }

/-- R89, R173, R187: a write of a reserved address has no effect of its own. R83, "3 selects nothing (a gap)": neither has
a term with `cib = 3`, which no word decodes to (the model's choice for an ill-formed term, log entry 17). -/
def Obligations.WritesWithoutEffectComplete : Prop :=
  ∀ (bank : BitVec 1) (pos : BitVec 2) (addr d : Byte) (s : State),
    exec (.reserved bank addr d) s = .next s ∧ exec (.reserved23 d) s = .next s ∧ exec (.reserved29 d) s = .next s
    ∧ exec (.dtMul bank pos 3 d) s = .next s ∧ exec (.tl bank pos 3 d) s = .next s
    ∧ exec (.ksAr bank pos 3 d) s = .next s ∧ exec (.amDr bank pos 3 d) s = .next s
    ∧ exec (.sr bank pos 3 d) s = .next s ∧ exec (.slRr bank pos 3 d) s = .next s
    ∧ exec (.ssgeg bank pos 3 d) s = .next s ∧ exec (.fnumLo bank 3 d) s = .next s
    ∧ exec (.fnumHi bank 3 d) s = .next s ∧ exec (.fnum3Lo 3 d) s = .next s ∧ exec (.fnum3Hi 3 d) s = .next s
    ∧ exec (.fbAlg bank 3 d) s = .next s ∧ exec (.panLfo bank 3 d) s = .next s

/-! ### Clock and commit -/

/-- `40_clock_prescaler.md` R101, R102, R105: the history takes the clock sample; on a rising edge phase 1 occurs iff the count
is 0, phase 2 iff it is `P div 2`, and the count advances modulo `P`, the period of the variant; on any other step neither
occurs and the count holds. (That a period of 0, which R102 excludes, does not wrap is the model's choice, log entry 18.) -/
def Obligations.PrescalerCounts : Prop :=
  ∀ s : State, ∃ t : State, step s = .next t
    ∧ (let period : Nat := match s.cfg.variant with | .mono => s.cfg.prescMono | .stereo => s.cfg.prescStereo
       s.cfg.prescPeriod = period
       ∧ t.raw.oscHist = s.raw.oscHist.extractLsb' 0 1 ++ BitVec.ofBool s.nextPins.clock
       ∧ (s.rises = true ↔ t.raw.oscHist = 0b01)
       ∧ (t.raw.oscHist = 0b01 →
           (s.tickStarts = true ↔ s.raw.prescCnt = 0)
           ∧ (s.tickEnds = true ↔ s.raw.prescCnt = period / 2)
           ∧ t.raw.prescCnt = (s.raw.prescCnt + 1) % period)
       ∧ (t.raw.oscHist ≠ 0b01 →
           s.tickStarts = false ∧ s.tickEnds = false ∧ t.raw.prescCnt = s.raw.prescCnt))

/-- `00_scope.md` R9, R104, R106: `cur` becomes `next`, for every pair at once, in a step in which phase 2 occurs, and changes
in no other; `next` changes only where phase 1 occurs; the two never occur together; the configuration never changes. -/
def Obligations.CommitOnlyAtPhase2 : Prop :=
  ∀ s : State, s.cfg.wf = true → ∃ t : State, step s = .next t
    ∧ (s.tickEnds = true → t.cur = s.nxt)
    ∧ (s.tickEnds = false → t.cur = s.cur)
    ∧ (s.tickStarts = false → t.nxt = s.nxt)
    ∧ ¬(s.tickStarts = true ∧ s.tickEnds = true)
    ∧ t.cfg = s.cfg

/-- `70_reset_and_hazards.md` R373: no phase-1 rule reads a `next` half. Two states that differ in their `next` halves only
step to the same state when phase 1 occurs. -/
def Obligations.Phase1ReadsNoNext : Prop :=
  ∀ (s : State) (n : Regs), s.tickStarts = true → step { s with nxt := n } = step s

/-! ### Reset -/

/-- R109: at every phase 1, in reset and out of it, `ic` takes the reset pin and `rst_sr` shifts it in at the newest place of
its `N` bits. -/
def Obligations.ResetSynchroniserShifts : Prop :=
  ∀ s : State, s.tickStarts = true → ∃ t : State, step s = .next t
    ∧ t.nxt.rst.ic = s.nextPins.reset
    ∧ t.nxt.rst.rstSr = (2 * s.cur.rst.rstSr + if s.nextPins.reset then 1 else 0) % 2 ^ s.cfg.resetDebounce

/-- `44_timing_sequencer.md` R200, R201, R204: both two-level counters at every phase 1, in reset and out of it, and the enable
record of the tick, the variant's at the sequencer counter. (That a table too short gives `FsmRec.idle` is the model's choice,
log entry 18.) -/
def Obligations.CountersAdvance : Prop :=
  ∀ s : State, s.tickStarts = true → ∃ t : State, step s = .next t
    ∧ (let f : Bool := s.cur.rst.rstSr == 2 ^ s.cfg.resetDebounce - 1
       let table := match s.cfg.variant with | .mono => s.cfg.fsmMono | .stereo => s.cfg.fsmStereo
       let record := table.getD (4 * s.cur.scan.fsmCnt2.toNat + s.cur.scan.fsmCnt1.toNat) FsmRec.idle
       let e : Bool := record.restart
       enables s.cfg s.cur = record
       ∧ t.nxt.scan.fsmCnt1.toNat = (if f then 0 else (s.cur.scan.fsmCnt1.toNat + 1) % 4)
       ∧ t.nxt.scan.fsmCnt2.toNat = (if f then 0 else
           if s.cur.scan.fsmCnt1.toNat = 3 then (s.cur.scan.fsmCnt2.toNat + 1) % 8 else s.cur.scan.fsmCnt2.toNat)
       ∧ t.nxt.scan.regCnt1.toNat = (if f || e then 0 else (s.cur.scan.regCnt1.toNat + 1) % 4)
       ∧ t.nxt.scan.regCnt2.toNat = (if f || e then 0 else
           if s.cur.scan.regCnt1.toNat = 3 then (s.cur.scan.regCnt2.toNat + 1) % 8 else s.cur.scan.regCnt2.toNat))

/-- R360: in a tick with `ic.cur = 1` every `next` gets its reset value but the reset pairs and the four counters (whose rules
are `ResetSynchroniserShifts` and `CountersAdvance`), whatever register write is pending. `10_state.md` R23 to R37: every
reset value is 0 but for `eg_level`, `eg_state` and `eg_out`. -/
def Obligations.ResetForcesEveryPair : Prop :=
  (∀ s : State, s.tickStarts = true → s.cur.rst.ic = true → ∃ t : State, step s = .next t
    ∧ t.nxt = { Regs.reset with rst := t.nxt.rst, scan := t.nxt.scan })
  ∧ (let r := Regs.reset
     r.rst = { ic := false, rstSr := 0 }
     ∧ r.scan = { regCnt1 := 0, regCnt2 := 0, fsmCnt1 := 0, fsmCnt2 := 0 }
     ∧ r.bus =
        { waEn := false, wdEn := false, regAddr := 0, regBank := 0, regData := 0, dataValid := false, busyCnt := 0 }
     ∧ r.glob =
        { test21 := 0, lfoEn := false, lfoFreq := 0, taReload := 0, tbReload := 0, ch3Mode := 0, tbEnable := false
          taEnable := false, tbLoad := false, taLoad := false, tbReset := false, taReset := false, konOp := 0
          konCh := 0, dacData := 0, dacEn := false, test2c := 0 }
     ∧ r.lfo = { quot := 0, cnt := 0, wrap := false, out := 0 }
     ∧ r.tmr =
        { taCnt := 0, taLoadLock := false, taLoadLatch := false, taOvf := false, taFlag := false, tbCnt := 0, tbSub := 0
          tbLoadLock := false, tbLoadLatch := false, tbOvf := false, tbFlag := false }
     ∧ r.eg.quot = 0 ∧ r.eg.timer = 0 ∧ r.eg.shiftLock = 0 ∧ r.eg.lowLock = 0
     ∧ r.key.csmReq = false ∧ r.key.csmKon = false ∧ r.chan.fhiLatch = 0 ∧ r.chan.fhi3Latch = 0 ∧ r.op.modIn = 0
     ∧ r.acc.monoOut = 0 ∧ r.acc.mixL = 0 ∧ r.acc.mixR = 0 ∧ r.acc.dacWord = 0
     ∧ (∀ k : Fin 24,
        r.slot.dt[k] = 0 ∧ r.slot.mul[k] = 0 ∧ r.slot.tl[k] = 0 ∧ r.slot.ks[k] = 0 ∧ r.slot.ar[k] = 0
        ∧ r.slot.am[k] = false ∧ r.slot.dr[k] = 0 ∧ r.slot.sr[k] = 0 ∧ r.slot.sl[k] = 0 ∧ r.slot.rr[k] = 0
        ∧ r.slot.ssg[k] = 0
        ∧ r.key.konReg[k] = false ∧ r.key.konLatch[k] = false ∧ r.key.konPrev[k] = false ∧ r.key.konCsm[k] = false
        ∧ r.eg.level[k] = 0x3FF ∧ r.eg.state[k] = .release ∧ r.eg.out[k] = 0x3FF ∧ r.eg.ssgDir[k] = false
        ∧ r.eg.ssgInv[k] = false ∧ r.eg.ssgPgrst[k] = false ∧ r.eg.ssgRepeat[k] = false ∧ r.eg.ssgHoldup[k] = false
        ∧ r.pg.phase[k] = 0 ∧ r.pg.inc[k] = 0 ∧ r.pg.reset[k] = false ∧ r.op.opOut[k] = 0)
     ∧ (∀ c : Fin 6,
        r.chan.fnum[c] = 0 ∧ r.chan.block[c] = 0 ∧ r.chan.fb[c] = 0 ∧ r.chan.alg[c] = 0 ∧ r.chan.panL[c] = false
        ∧ r.chan.panR[c] = false ∧ r.chan.ams[c] = 0 ∧ r.chan.pms[c] = 0 ∧ r.op.op1Prev[c] = 0 ∧ r.acc.chAcc[c] = 0
        ∧ r.acc.chOut[c] = 0)
     ∧ ∀ i : Fin 3, r.chan.fnum3[i] = 0 ∧ r.chan.block3[i] = 0)

/-- R362, R363: from any state, reachable or not, at a tick boundary of a well-formed configuration, let the reset pin be
asserted for `m ≥ N` ticks and then released, the bus idle. After the commit of the first tick that samples it released, the
state is canonical idle, the serializer latches are 0, the status byte is 0x00 and every output is 0, whatever the divided
clocks' position. At the end of that tick's period the pairs and the bus latches are still so, and so is the serializer in
`VAR_MONO` and, in `VAR_STEREO`, with the divided clocks in step with the prescaler. -/
def Obligations.ResetGivesCanonicalIdle : Prop :=
  ∀ (s : State) (m : Nat), s.cfg.wf = true → s.raw.prescCnt = 0 → s.cfg.resetDebounce ≤ m →
    let start := { s with host := hostReset s.cfg m ++ hostWait s.cfg 1 }
    (∃ t : State, Sys2Proof.core.run (2 * (m * s.cfg.prescPeriod + s.cfg.prescPeriod / 2 + 1)) start = .next t
      ∧ t.CanonicalIdle ∧ t.SerialIdle ∧ t.cfg = s.cfg ∧ t.cur.status = 0 ∧ t.out.dataOut = 0 ∧ t.out.dataOutEn = false
      ∧ t.out.audio = match s.cfg.variant with
        | .mono => .mono 0
        | .stereo => .stereo false false false false)
    ∧ ∃ t : State, Sys2Proof.core.run (2 * ((m + 1) * s.cfg.prescPeriod)) start = .next t
      ∧ t.CanonicalIdle ∧ t.cfg = s.cfg ∧ t.raw.prescCnt = 0
      ∧ (s.cfg.variant = .mono ∨ (s.cfg.dclkPeriod = s.cfg.prescPeriod ∧ s.raw.dclkCnt = 0) → t.SerialIdle)

/-- `10_state.md` R21, R362: the created state of a configuration is the canonical idle state but for `rst_sr`, which is 0; its
clock latches are 0, its status byte 0x00. Its output record, before any step has driven one, is that of the idle state (the
model's choice, log entry 21). -/
def Obligations.CreatedStateIsIdle : Prop :=
  ∀ c : Config,
    let s := State.created c
    s.cur = { Regs.canonical c with rst := { ic := false, rstSr := 0 } } ∧ s.nxt = s.cur
    ∧ s.raw.dataLatch = 0 ∧ s.raw.bankLatch = 0 ∧ s.raw.waPend = false ∧ s.raw.wdPend = false ∧ s.raw.waPrev = false
    ∧ s.raw.wdPrev = false ∧ s.SerialIdle ∧ s.raw.oscHist = 0 ∧ s.raw.prescCnt = 0 ∧ s.raw.dclkCnt = 0
    ∧ s.cur.status = 0 ∧ s.out.dataOut = 0 ∧ s.out.dataOutEn = false ∧ s.out.audio = s.audio

/-! ### The invariant -/

/-- The machine right after reset meets the invariant (R21, R362; its configuration is the default of R6, log entry 2). -/
def Obligations.ResetMeetsInvariant : Prop := State.reset.Inv

/-- Every step from a state that meets the invariant, reachable or not, leads to one that meets it (R22, R23, R27, R32, R36,
R104, R202, R253, R255, R297, R312, R316). -/
def Obligations.StepKeepsInvariant : Prop :=
  ∀ s t : State, s.Inv → step s = .next t → t.Inv

/-! ### Bus front end -/

/-- R125, R126, R144, R145: the hand-over of the strobes and the address and data capture, out of reset. `bus` is the data
latch after the sample's own strobe. -/
def Obligations.HandOverAndCapture : Prop :=
  ∀ s : State, s.tickStarts = true → s.cur.rst.ic = false → ∃ t : State, step s = .next t
    ∧ (let p := s.nextPins
       let wa := p.cs && p.wr && !p.address[0]
       let wd := p.cs && p.wr && p.address[0]
       let bus := if wa || wd then p.data else s.raw.dataLatch
       let bank := if wa then p.address.extractLsb' 1 1 else s.raw.bankLatch
       let b := s.cur.bus
       t.nxt.bus.waEn = (s.raw.waPend || (wa && !s.raw.waPrev)) ∧ t.nxt.bus.wdEn = (s.raw.wdPend || (wd && !s.raw.wdPrev))
       ∧ t.raw.waPend = false ∧ t.raw.wdPend = false
       ∧ (b.waEn = true → t.nxt.bus.regAddr = bus ∧ t.nxt.bus.regBank = bank ∧ t.nxt.bus.regData = b.regData
           ∧ t.nxt.bus.dataValid = false)
       ∧ (b.waEn = false → b.wdEn = true → t.nxt.bus.regAddr = b.regAddr ∧ t.nxt.bus.regBank = b.regBank
           ∧ t.nxt.bus.regData = bus ∧ t.nxt.bus.dataValid = true)
       ∧ (b.waEn = false → b.wdEn = false → t.nxt.bus.regAddr = b.regAddr ∧ t.nxt.bus.regBank = b.regBank
           ∧ t.nxt.bus.regData = b.regData ∧ t.nxt.bus.dataValid = b.dataValid))

/-- R127: the busy countdown at phase 1, in reset and out of it. -/
def Obligations.BusyCountsDown : Prop :=
  ∀ s : State, s.tickStarts = true → ∃ t : State, step s = .next t
    ∧ (s.cur.rst.ic = true → t.nxt.bus.busyCnt = 0)
    ∧ (s.cur.rst.ic = false → s.cur.bus.wdEn = true → t.nxt.bus.busyCnt = s.cfg.busyLen)
    ∧ (s.cur.rst.ic = false → s.cur.bus.wdEn = false → s.cur.bus.busyCnt ≠ 0 →
        t.nxt.bus.busyCnt + 1 = s.cur.bus.busyCnt)
    ∧ (s.cur.rst.ic = false → s.cur.bus.wdEn = false → s.cur.bus.busyCnt = 0 → t.nxt.bus.busyCnt = 0)

/-- R126, R129, R131, R320, R322, R323: the output record of every step, from the state it leaves; in reset the status byte is
0x00 and the variant's outputs are 0. A status read in test-read mode answers the free value `testTap` (the model's choice, log
entry 5), in the first tick of a reset too (log entry 23). The fallback byte is of the three forms of log entry 6. -/
def Obligations.OutputsFollowState : Prop :=
  ∀ s : State, ∃ t : State, step s = .next t
    ∧ (let p := s.nextPins
       let bus : Byte := if t.cur.rst.ic then 0 else t.raw.dataLatch
       let status : Byte :=
         if t.cur.rst.ic then 0
         else BitVec.ofBool (t.cur.bus.busyCnt != 0) ++ (0 : BitVec 5) ++ BitVec.ofBool t.cur.tmr.tbFlag
           ++ BitVec.ofBool t.cur.tmr.taFlag
       ((p.cs && p.rd) = true → p.address = 0 →
         t.out.dataOut = (if t.cur.glob.test21[6] then Config.testTap t.cur else status) ∧ t.out.dataOutEn = true)
       ∧ ((p.cs && p.rd) = true → p.address ≠ 0 →
         t.out.dataOutEn = false ∧ (s.cfg.floatBus = .bus → t.out.dataOut = bus)
         ∧ (∀ b, s.cfg.floatBus = .fixed b → t.out.dataOut = b)
         ∧ (∀ n, s.cfg.floatBus = .unknown n → t.out.dataOut = Config.floatTap n))
       ∧ ((p.cs && p.rd) = false → t.out.dataOut = bus ∧ t.out.dataOutEn = false)
       ∧ t.out.audio = match s.cfg.variant with
         | .mono => .mono (if t.cur.rst.ic then 0 else t.cur.acc.monoOut)
         | .stereo => .stereo t.raw.so t.raw.wc t.raw.lrc t.raw.bck)
    ∧ (t.cur.rst.ic = true → t.out.audio = match s.cfg.variant with
        | .mono => .mono 0
        | .stereo => .stereo false false false false)

/-- `20_memory.md` R67: a read has no side effect. Whether the host reads in a sample changes the data outputs and nothing
else of the state; and of two reads of one address in successive samples, without a write, the second answers the byte of the
first unless a tick ends in it. -/
def Obligations.ReadsHaveNoSideEffect : Prop :=
  (∀ (s : State) (p : Pins) (b : Bool), ∃ t u : State,
    step { s with host := p :: s.host } = .next t ∧ step { s with host := { p with rd := b } :: s.host } = .next u
    ∧ u.cfg = t.cfg ∧ u.raw = t.raw ∧ u.cur = t.cur ∧ u.nxt = t.nxt ∧ u.host = t.host ∧ u.out.audio = t.out.audio)
  ∧ ∀ (s : State) (p q : Pins), p.cs = true → p.rd = true → q.cs = true → q.rd = true → q.wr = false →
    q.address = p.address → ∃ t u : State,
    step { s with host := p :: q :: s.host } = .next t ∧ step t = .next u
    ∧ (t.tickEnds = false → u.out.dataOut = t.out.dataOut ∧ u.out.dataOutEn = t.out.dataOutEn)

/-! ### Per-slot stages -/

/-- R142, R146, R203, R230, R250, R253, R290, R310: in a tick out of reset, the pipelines change no element of a slot that is
not in front, and no element of a channel whose slot is not in front; at a gap position no element at all. R146, R147, R160,
R182, R184: the register files hold without a match, the holding latches and the global registers without a global write
pulse at their addresses, but for the two timer reset requests, which clear themselves (R338). -/
def Obligations.OnlyFrontSlotChanges : Prop :=
  ∀ s : State, s.tickStarts = true → s.cur.rst.ic = false → ∃ t : State, step s = .next t
    ∧ (∀ k : Fin 24, s.cur.frontSlot ≠ some k →
        t.nxt.pg.phase[k] = s.cur.pg.phase[k] ∧ t.nxt.pg.inc[k] = s.cur.pg.inc[k] ∧ t.nxt.pg.reset[k] = s.cur.pg.reset[k]
        ∧ t.nxt.eg.level[k] = s.cur.eg.level[k] ∧ t.nxt.eg.state[k] = s.cur.eg.state[k]
        ∧ t.nxt.eg.out[k] = s.cur.eg.out[k] ∧ t.nxt.eg.ssgDir[k] = s.cur.eg.ssgDir[k]
        ∧ t.nxt.eg.ssgInv[k] = s.cur.eg.ssgInv[k] ∧ t.nxt.eg.ssgPgrst[k] = s.cur.eg.ssgPgrst[k]
        ∧ t.nxt.eg.ssgRepeat[k] = s.cur.eg.ssgRepeat[k] ∧ t.nxt.eg.ssgHoldup[k] = s.cur.eg.ssgHoldup[k]
        ∧ t.nxt.op.opOut[k] = s.cur.op.opOut[k] ∧ t.nxt.key.konReg[k] = s.cur.key.konReg[k]
        ∧ t.nxt.key.konLatch[k] = s.cur.key.konLatch[k] ∧ t.nxt.key.konPrev[k] = s.cur.key.konPrev[k]
        ∧ t.nxt.key.konCsm[k] = s.cur.key.konCsm[k])
    ∧ (∀ c : Fin 6, (∀ k, s.cur.frontSlot = some k → chanOf k ≠ c) →
        t.nxt.op.op1Prev[c] = s.cur.op.op1Prev[c] ∧ t.nxt.acc.chAcc[c] = s.cur.acc.chAcc[c]
        ∧ t.nxt.acc.chOut[c] = s.cur.acc.chOut[c])
    ∧ (let a := s.cur.bus.regAddr.toNat
       let pulse := globalPulse s.cur = true
       (operatorMatch s.cur = false → t.nxt.slot = s.cur.slot)
       ∧ (channelMatch s.cur = false → t.nxt.chan =
           { s.cur.chan with fhiLatch := t.nxt.chan.fhiLatch, fhi3Latch := t.nxt.chan.fhi3Latch })
       ∧ (¬(pulse ∧ a / 4 = 0x29 ∧ a % 4 ≠ 3) → t.nxt.chan.fhiLatch = s.cur.chan.fhiLatch)
       ∧ (¬(pulse ∧ a / 4 = 0x2B ∧ a % 4 ≠ 3 ∧ s.cur.bus.regBank = 0) → t.nxt.chan.fhi3Latch = s.cur.chan.fhi3Latch)
       ∧ (¬(pulse ∧ 0x21 ≤ a ∧ a ≤ 0x2C ∧ s.cur.bus.regBank = 0) →
           t.nxt.glob = { s.cur.glob with taReset := false, tbReset := false }))

/-! ### Key state, CSM, timers -/

/-- `43_register_writes.md` R169: key-on distribution. In a tick out of reset whose front slot is `f`, `kon_reg[f]` takes its
bit of the mask if `kon_ch` names the channel in front; every other element holds. -/
def Obligations.KeyOnDistribution : Prop :=
  ∀ s : State, s.Inv → s.tickStarts = true → s.cur.rst.ic = false → ∃ t : State, step s = .next t
    ∧ ∀ k : Fin 24, t.nxt.key.konReg[k] =
        if s.cur.frontSlot = some k ∧ k.val % 6 + k.val % 6 / 3 = s.cur.glob.konCh.toNat then
          s.cur.glob.konOp.getLsbD (match k.val / 6 with | 0 => 0 | 1 => 2 | 2 => 1 | _ => 3)
        else s.cur.key.konReg[k]

/-- `47_envelope_generator.md` R253: the key history at the visit of a slot. -/
def Obligations.KeyHistoryShifts : Prop :=
  ∀ s : State, s.Inv → s.tickStarts = true → s.cur.rst.ic = false → ∃ t : State, step s = .next t
    ∧ ∀ k : Fin 24, s.cur.frontSlot = some k →
        (let csm := s.cur.key.csmKon && k.val % 6 == 2
         t.nxt.key.konLatch[k] = (s.cur.key.konReg[k] || csm) ∧ t.nxt.key.konCsm[k] = csm
         ∧ t.nxt.key.konPrev[k] = s.cur.key.konLatch[k])

/-- `60_exceptions.md` R335, R345: the CSM request and the synthetic key-on, in every tick out of reset. (That a request waiting
when CSM mode ends is still served is the model's choice beside R346, log entry 24.) -/
def Obligations.CsmKeyOn : Prop :=
  ∀ s : State, s.tickStarts = true → s.cur.rst.ic = false → ∃ t : State, step s = .next t
    ∧ (let e := enables s.cfg s.cur
       let ev := s.cur.tmr.taOvf || (e.tmrCoarse && s.cur.glob.taLoad && !s.cur.tmr.taLoadLock)
       let r := s.cur.key.csmReq || (ev && s.cur.glob.ch3Mode == 2)
       (e.tmrCoarse = true → t.nxt.key.csmKon = r ∧ t.nxt.key.csmReq = false)
       ∧ (e.tmrCoarse = false → t.nxt.key.csmReq = r ∧ t.nxt.key.csmKon = s.cur.key.csmKon))

/-- R335 to R338: timer A in every tick out of reset. -/
def Obligations.TimerACounts : Prop :=
  ∀ s : State, s.tickStarts = true → s.cur.rst.ic = false → ∃ t : State, step s = .next t
    ∧ (let e := enables s.cfg s.cur
       let c := s.cur.tmr
       let g := s.cur.glob
       let n := (if c.taLoadLatch then g.taReload.toNat else c.taCnt.toNat)
         + (if e.tmrFine = true ∧ c.taLoadLock = true then 1 else 0)
       t.nxt.tmr.taLoadLatch = (c.taOvf || (e.tmrCoarse && g.taLoad && !c.taLoadLock))
       ∧ t.nxt.tmr.taLoadLock = (if e.tmrCoarse then g.taLoad else c.taLoadLock)
       ∧ t.nxt.tmr.taCnt.toNat = n % 1024 ∧ (t.nxt.tmr.taOvf = true ↔ 1024 ≤ n)
       ∧ (g.taReset = true → t.nxt.tmr.taFlag = false)
       ∧ (g.taReset = false → t.nxt.tmr.taFlag = (c.taFlag || (c.taOvf && g.taEnable))))

/-- R340, R341: timer B with its sub-counter, in every tick out of reset. -/
def Obligations.TimerBCounts : Prop :=
  ∀ s : State, s.tickStarts = true → s.cur.rst.ic = false → ∃ t : State, step s = .next t
    ∧ (let e := enables s.cfg s.cur
       let c := s.cur.tmr
       let g := s.cur.glob
       let u := c.tbSub.toNat + 1
       let n := (if c.tbLoadLatch then g.tbReload.toNat else c.tbCnt.toNat)
         + (if e.tmrFine = true ∧ u = 16 ∧ c.tbLoadLock = true then 1 else 0)
       t.nxt.tmr.tbLoadLatch = (c.tbOvf || (e.tmrCoarse && g.tbLoad && !c.tbLoadLock))
       ∧ t.nxt.tmr.tbLoadLock = (if e.tmrCoarse then g.tbLoad else c.tbLoadLock)
       ∧ t.nxt.tmr.tbSub.toNat = (if e.tmrFine then u % 16 else c.tbSub.toNat)
       ∧ t.nxt.tmr.tbCnt.toNat = n % 256 ∧ (t.nxt.tmr.tbOvf = true ↔ 256 ≤ n)
       ∧ (g.tbReset = true → t.nxt.tmr.tbFlag = false)
       ∧ (g.tbReset = false → t.nxt.tmr.tbFlag = (c.tbFlag || (c.tbOvf && g.tbEnable))))

/-- R338, R167: in a tick out of reset a reset request clears its flag, and the two requests clear themselves, unless the tick
carries out a `MODE` write, whose bits 4 and 5 then win. -/
def Obligations.TimerResetRequestsClear : Prop :=
  ∀ s : State, s.tickStarts = true → s.cur.rst.ic = false → ∃ t : State, step s = .next t
    ∧ (let p := s.nextPins
       let bus := if p.cs && p.wr then p.data else s.raw.dataLatch
       let mode := s.cur.bus.regBank = 0 ∧ s.cur.bus.regAddr = 0x27 ∧ s.cur.bus.wdEn = true ∧ s.cur.bus.waEn = false
       (s.cur.glob.taReset = true → t.nxt.tmr.taFlag = false) ∧ (s.cur.glob.tbReset = true → t.nxt.tmr.tbFlag = false)
       ∧ (¬mode → t.nxt.glob.taReset = false ∧ t.nxt.glob.tbReset = false)
       ∧ (mode → t.nxt.glob.taReset = bus[4] ∧ t.nxt.glob.tbReset = bus[5]))

/-! ### LFO, phase, envelope -/

/-- `45_lfo.md` R220 to R224: the LFO in every tick out of reset. (That a period table too short gives the period 0 is the
model's choice, log entry 18.) -/
def Obligations.LfoCounts : Prop :=
  ∀ s : State, s.tickStarts = true → s.cur.rst.ic = false → ∃ t : State, step s = .next t
    ∧ (let e := enables s.cfg s.cur
       let l := s.cfg.lfoPeriod.getD s.cur.glob.lfoFreq.toNat 0
       let o := s.cur.lfo
       (e.restart = true → s.cur.glob.test21[1] = false → o.quot.toNat &&& l = l →
         t.nxt.lfo.quot = 0 ∧ t.nxt.lfo.wrap = true)
       ∧ (e.restart = true → s.cur.glob.test21[1] = false → o.quot.toNat &&& l ≠ l →
         t.nxt.lfo.quot.toNat = (o.quot.toNat + 1) % 128 ∧ t.nxt.lfo.wrap = false)
       ∧ (e.restart = false ∨ s.cur.glob.test21[1] = true → t.nxt.lfo.quot = o.quot ∧ t.nxt.lfo.wrap = false)
       ∧ (s.cur.glob.lfoEn = false → t.nxt.lfo.cnt = 0)
       ∧ (s.cur.glob.lfoEn = true → t.nxt.lfo.cnt.toNat = (if o.wrap then (o.cnt.toNat + 1) % 128 else o.cnt.toNat))
       ∧ t.nxt.lfo.out = (if e.restart then o.cnt else o.out))

/-- R225: the vibrato and tremolo values of every LFO output; tremolo is even and at most 126. -/
def Obligations.LfoValues : Prop :=
  ∀ o : BitVec 7, (lfoPm o).toNat = o.toNat / 4
    ∧ lfoAm o = (if o[6] then o &&& 0x3F else o ^^^ 0x3F).toNat * 2 % 128
    ∧ lfoAm o ≤ 126 ∧ lfoAm o % 2 = 0

/-- `46_phase_generator.md` R230, R241: at the visit of a slot the phase restarts, or advances by the increment of this visit,
20 bits with wraparound; the increment is stored either way. -/
def Obligations.PhaseAccumulates : Prop :=
  ∀ s : State, s.Inv → s.tickStarts = true → s.cur.rst.ic = false → ∃ t : State, step s = .next t
    ∧ ∀ k : Fin 24, s.cur.frontSlot = some k →
        t.nxt.pg.phase[k].toNat =
          (if s.cur.pg.reset[k] then 0 else (s.cur.pg.phase[k].toNat + t.nxt.pg.inc[k].toNat) % 2 ^ 20)
        ∧ t.nxt.pg.inc[k] = visitInc s.cfg (enables s.cfg s.cur) s.cur k

/-- R232 to R240: the increment of a slot from its frequency, detune and multiplier fields, vibrato and sensitivity: the
displaced frequency, the key code, the detune and their combination, modulo `2^20`. Without vibrato (sensitivity 0, whose
shifts are all 7) and without detune (amount 0) it is `((2F * 2^B) / 4) * mul2 / 2`. R231, R234, R238, R240: what the visit of a
slot takes for those fields (the increment of the visit is the one `PhaseAccumulates` adds). (That a table too short gives 0 is
the model's choice, log entry 18.) -/
def Obligations.PlainIncrement : Prop :=
  (∀ (c : Config) (f : BitVec 11) (b dt : BitVec 3) (mul : BitVec 4) (pm : BitVec 5) (v : BitVec 3),
      (let l := if 8 ≤ pm.toNat % 16 then 15 - pm.toNat % 16 else pm.toNat % 16
       let part (table : List (List Nat)) := f.toNat / 16 / 2 ^ (table.getD v.toNat []).getD l 0
       let fm := (part c.pmSh1 + part c.pmSh2) * 2 ^ (v.toNat - 5) / 4
       let displaced : Int := if 16 ≤ pm.toNat then 2 * f.toNat - fm else 2 * f.toNat + fm
       let kcode := 4 * b.toNat + c.fnNote.getD (f.toNat / 128) 0
       let a := dt.toNat % 4
       let k := min kcode 28
       let sum := k / 4 + 9 + (if a = 3 then 3 else if a = 2 then 2 else 0)
       let det := if a = 0 then 0 else c.detuneBase.getD (4 * (sum % 2) + k % 4) 0 / 2 ^ (9 - sum / 2)
       let base := vibratoFreq c f pm v * 2 ^ b.toNat / 4
       let base' : Int := (if 4 ≤ dt.toNat then (base : Int) - det else base + det) % 2 ^ 17
       (vibratoFreq c f pm v : Int) = displaced % 4096 ∧ keyCode c f b = kcode ∧ detune c kcode dt = det
       ∧ ((phaseInc c f b dt mul pm v).toNat : Int) = base' * (if mul = 0 then 1 else 2 * mul.toNat) / 2 % 2 ^ 20)
      ∧ (c.pmSh1.getD 0 [] = List.replicate 8 7 → c.pmSh2.getD 0 [] = List.replicate 8 7 → dt.toNat % 4 = 0 →
        (phaseInc c f b dt mul pm 0).toNat
          = 2 * f.toNat * 2 ^ b.toNat / 4 * (if mul = 0 then 1 else 2 * mul.toNat) / 2 % 2 ^ 20))
  ∧ ∀ (c : Config) (e : FsmRec) (r : Regs) (k : Fin 24),
      let ch : Fin 6 := ⟨k.val % 6, by omega⟩
      visitInc c e r k =
        phaseInc c (freqOf e r k).1 (freqOf e r k).2 r.slot.dt[k] r.slot.mul[k] (lfoPm r.lfo.out) r.chan.pms[ch]

/-- R231: which frequency pair a slot uses. -/
def Obligations.FrequencySelection : Prop :=
  ∀ (e : FsmRec) (r : Regs) (k : Fin 24),
    let special := r.glob.ch3Mode ≠ 0 ∧ e.ch3Sel = true
    let c : Fin 6 := ⟨k.val % 6, by omega⟩
    (special → k.val / 6 = 0 → freqOf e r k = (r.chan.fnum3[1], r.chan.block3[1]))
    ∧ (special → k.val / 6 = 1 → freqOf e r k = (r.chan.fnum3[0], r.chan.block3[0]))
    ∧ (special → k.val / 6 = 2 → freqOf e r k = (r.chan.fnum3[2], r.chan.block3[2]))
    ∧ (¬special ∨ k.val / 6 = 3 → freqOf e r k = (r.chan.fnum[c], r.chan.block[c]))

/-- `47_envelope_generator.md` R254, R255: the envelope timer and its locks in every tick out of reset. (What a prescale outside 1
to 4, which `Config.wf` excludes, does is the model's choice, log entry 18.) -/
def Obligations.EnvelopeTimerSteps : Prop :=
  ∀ s : State, s.tickStarts = true → s.cur.rst.ic = false → ∃ t : State, step s = .next t
    ∧ (let g := s.cur.eg
       let h := t.nxt.eg
       let clk := (enables s.cfg s.cur).egClock
       let q := (g.quot.toNat + 1) % s.cfg.egPrescale
       let n := (g.timer.toNat + 1) % 4096
       (clk = true → h.quot.toNat = q % 4 ∧ (s.cfg.wf = true → h.quot.toNat = q))
       ∧ (clk = true → q = s.cfg.egPrescale - 1 → h.timer.toNat = n ∧ h.lowLock.toNat = n % 4
           ∧ (n = 0 → h.shiftLock = 0)
           ∧ (n ≠ 0 → 1 ≤ h.shiftLock.toNat ∧ h.shiftLock.toNat ≤ 12
               ∧ n % 2 ^ (h.shiftLock.toNat - 1) = 0 ∧ n / 2 ^ (h.shiftLock.toNat - 1) % 2 = 1))
       ∧ (clk = true → q ≠ s.cfg.egPrescale - 1 →
           h.timer = g.timer ∧ h.shiftLock = g.shiftLock ∧ h.lowLock = g.lowLock)
       ∧ (clk = false → h.quot = g.quot ∧ h.timer = g.timer ∧ h.shiftLock = g.shiftLock ∧ h.lowLock = g.lowLock))

/-- R257, R258, R242, R261, R269: at every visit the phase restart is asked for exactly at a rising key-on edge or by the SSG-EG
flag. A rising edge forces `attack`; with `rate ≥ 62` the level goes to 0 at once, and it never rises. -/
def Obligations.KeyOnEdgeRestarts : Prop :=
  ∀ (s : State) (k : Fin 24), s.Inv → s.tickStarts = true → s.cur.rst.ic = false → s.cur.frontSlot = some k →
    ∃ t : State, step s = .next t
    ∧ t.nxt.pg.reset[k] = ((s.cur.key.konLatch[k] && !s.cur.key.konPrev[k]) || s.cur.eg.ssgPgrst[k])
    ∧ (s.cur.key.konLatch[k] = true → s.cur.key.konPrev[k] = false →
        t.nxt.eg.state[k] = .attack
        ∧ (62 ≤ (visitRate s.cfg (enables s.cfg s.cur) s.cur k).2 → t.nxt.eg.level[k] = 0)
        ∧ t.nxt.eg.level[k].toNat ≤ s.cur.eg.level[k].toNat)

/-- R257, R268, R270, R271: a held slot without a key-on event goes from `attack` to `decay` once its level is 0, and, without
SSG-EG, from `decay` to `sustain` once its level is in the threshold band (15 taken as 31), the level unchanged in that
visit. -/
def Obligations.EnvelopeStateOrder : Prop :=
  ∀ (s : State) (k : Fin 24), s.Inv → s.tickStarts = true → s.cur.rst.ic = false → s.cur.frontSlot = some k →
    s.cur.key.konLatch[k] = true → s.cur.key.konPrev[k] = true → s.cur.eg.ssgRepeat[k] = false →
    ∃ t : State, step s = .next t
    ∧ (s.cur.eg.state[k] = .attack → s.cur.eg.level[k] = 0 → t.nxt.eg.state[k] = .decay ∧ t.nxt.eg.level[k] = 0)
    ∧ (s.cur.eg.state[k] = .attack → s.cur.eg.level[k] ≠ 0 → t.nxt.eg.state[k] = .attack)
    ∧ (let sl := s.cur.slot.sl[k].toNat
       let threshold := 2 * (if sl = 15 then 31 else sl)
       s.cur.eg.state[k] = .decay → s.cur.slot.ssg[k][3] = false → s.cur.eg.level[k].toNat / 16 = threshold →
         t.nxt.eg.state[k] = .sustain ∧ t.nxt.eg.level[k] = s.cur.eg.level[k])

/-- R273, R274: a slot whose key is off, without a key-on event, goes to `release`; without SSG-EG a slot not in `attack`,
without a key-on event, whose level has reached 0x3F0 drops to full attenuation and is idle. -/
def Obligations.EnvelopeReleasesToIdle : Prop :=
  ∀ (s : State) (k : Fin 24), s.Inv → s.tickStarts = true → s.cur.rst.ic = false → s.cur.frontSlot = some k →
    s.cur.eg.ssgRepeat[k] = false → ∃ t : State, step s = .next t
    ∧ (s.cur.key.konLatch[k] = false → t.nxt.eg.state[k] = .release)
    ∧ ((s.cur.key.konLatch[k] = true → s.cur.key.konPrev[k] = true) → s.cur.slot.ssg[k][3] = false →
        s.cur.eg.ssgInv[k] = false → s.cur.eg.ssgHoldup[k] = false → s.cur.eg.state[k] ≠ .attack →
        0x3F0 ≤ s.cur.eg.level[k].toNat → t.nxt.eg.state[k] = .release ∧ t.nxt.eg.level[k] = 0x3FF)

/-- R281, the source's monotonicity: without SSG-EG, a visit that leaves a slot in `attack` never raises its attenuation, and
one that leaves it in `decay`, `sustain` or `release` never lowers it. R257, R266 to R275: the level and the state a visit
leaves, with and without SSG-EG, from the rate and the increment code of the visit (which `AttackIncrement` gives). -/
def Obligations.EnvelopeMonotone : Prop :=
  ∀ (s : State) (k : Fin 24), s.tickStarts = true → s.cur.rst.ic = false → ∃ t : State, step s = .next t
    ∧ (s.cur.slot.ssg[k][3] = false → s.cur.eg.ssgInv[k] = false →
        (t.nxt.eg.state[k] = .attack → t.nxt.eg.level[k].toNat ≤ s.cur.eg.level[k].toNat)
        ∧ (t.nxt.eg.state[k] ≠ .attack → s.cur.eg.level[k].toNat ≤ t.nxt.eg.level[k].toNat))
    ∧ (s.Inv → s.cur.frontSlot = some k →
        (let g := s.cur.eg
         let rate := visitRate s.cfg (enables s.cfg s.cur) s.cur k
         let stp := stepCode s.cfg (g.quot.toNat == s.cfg.egPrescale - 1) rate.1 rate.2 g.shiftLock g.lowLock
         let nkon := s.cur.key.konLatch[k] = true
         let okon := s.cur.key.konPrev[k] = true
         let event := (nkon ∧ ¬okon) ∨ (okon ∧ g.ssgRepeat[k] = true)
         let ssg := s.cur.slot.ssg[k][3] = true
         let l := g.level[k].toNat
         let lvl := if okon ∧ ¬nkon ∧ g.ssgInv[k] = true then (1024 + 512 - l) % 1024 else l
         let off := if ssg then 512 ≤ lvl else 0x3F0 ≤ lvl
         let drop := g.state[k] ≠ .attack ∧ off ∧ g.ssgHoldup[k] = false
         let sl := s.cur.slot.sl[k].toNat
         let threshold := 2 * (if sl = 15 then 31 else sl)
         let attacked := lvl - ((lvl + 1) * 2 ^ stp + 31) / 32
         let attacks := g.state[k] = .attack ∧ lvl ≠ 0 ∧ stp ≠ 0 ∧ rate.2 < 62 ∧ nkon
         let reached := g.state[k] = .decay ∧ lvl / 16 = threshold
         t.nxt.eg.level[k].toNat =
           (if event ∧ 62 ≤ rate.2 then 0
            else if attacks then attacked
            else if event ∨ g.state[k] = .attack then lvl
            else if drop then 0x3FF
            else if off ∨ reached ∨ stp = 0 then lvl
            else lvl + 2 ^ (stp - 1) * (if ssg then 4 else 1))
         ∧ t.nxt.eg.state[k] =
           (if event then .attack
            else if drop ∨ ¬nkon then .release
            else if g.state[k] = .attack ∧ lvl = 0 then .decay
            else if reached then .sustain
            else g.state[k])))

/-- R276: the SSG-EG flags a visit stores, from the level it stores. -/
def Obligations.SsgFlagsFollowLevel : Prop :=
  ∀ (s : State) (k : Fin 24), s.Inv → s.tickStarts = true → s.cur.rst.ic = false → s.cur.frontSlot = some k →
    ∃ t : State, step s = .next t
    ∧ (let g := s.cur.slot.ssg[k]
       let nkon := s.cur.key.konLatch[k]
       let top := t.nxt.eg.level[k][9]
       let toggled :=
         if top && g.extractLsb' 0 2 == 2 then !s.cur.eg.ssgDir[k]
         else if top && g.extractLsb' 0 2 == 3 then true
         else s.cur.eg.ssgDir[k]
       (g[3] = false → t.nxt.eg.ssgDir[k] = false ∧ t.nxt.eg.ssgPgrst[k] = false ∧ t.nxt.eg.ssgRepeat[k] = false
         ∧ t.nxt.eg.ssgHoldup[k] = false ∧ t.nxt.eg.ssgInv[k] = false)
       ∧ (g[3] = true → t.nxt.eg.ssgPgrst[k] = (top && g.extractLsb' 0 2 == 0) ∧ t.nxt.eg.ssgRepeat[k] = (top && !g[0])
         ∧ t.nxt.eg.ssgHoldup[k] = (nkon && (g.extractLsb' 0 3 == 5 || g.extractLsb' 0 3 == 3))
         ∧ t.nxt.eg.ssgDir[k] = (toggled && nkon)
         ∧ t.nxt.eg.ssgInv[k] = ((t.nxt.eg.ssgDir[k] ^^ g[2]) && nkon)))

/-- R278, R279: the output attenuation of a visit is formed from the level it stores, the tremolo and the total level, and
saturates. -/
def Obligations.EnvelopeOutputSaturates : Prop :=
  ∀ (s : State) (k : Fin 24), s.Inv → s.tickStarts = true → s.cur.rst.ic = false → s.cur.frontSlot = some k →
    ∃ t : State, step s = .next t
    ∧ (let l := t.nxt.eg.level[k].toNat
       let lv := if s.cur.eg.ssgInv[k] then (1024 + 512 - l) % 1024 else l
       let amv := if s.cur.slot.am[k] then
           lfoAm s.cur.lfo.out >>> s.cfg.egAmShift.getD s.cur.chan.ams[chanOf k].toNat 0 else 0
       t.nxt.eg.out[k].toNat = min (lv + amv + 8 * s.cur.slot.tl[k].toNat) 1023)

/-- R267: the attack increment is the arithmetic shift the rule names, and never passes 0. R257, R259 to R262: the rate field and
the effective rate of a visit, from the phase it selects, the key code and the key-scale field. R256, R263, R264: the
increment code. (That a table too short gives 0 is the model's choice, log entry 18.) -/
def Obligations.AttackIncrement : Prop :=
  (∀ lvl k : Nat, 1 ≤ lvl → lvl ≤ 1023 → 1 ≤ k → k ≤ 4 →
    att lvl k = asr (-((lvl : Int) + 1) * 2 ^ k) 5 ∧ 0 ≤ (lvl : Int) + att lvl k ∧ (lvl : Int) + att lvl k < lvl)
  ∧ (∀ (c : Config) (e : FsmRec) (r : Regs) (k : Fin 24),
      let nkon := r.key.konLatch[k] = true
      let okon := r.key.konPrev[k] = true
      let event := (nkon ∧ ¬okon) ∨ (okon ∧ r.eg.ssgRepeat[k] = true)
      let r5 := match (if event then .attack else r.eg.state[k] : EgState) with
        | .attack => r.slot.ar[k].toNat
        | .decay => r.slot.dr[k].toNat
        | .sustain => r.slot.sr[k].toNat
        | .release => 2 * r.slot.rr[k].toNat + 1
      let f := freqOf e r k
      let kcode := 4 * f.2.toNat + c.fnNote.getD (f.1.toNat / 128) 0
      visitRate c e r k = (r5, min (2 * r5 + kcode / 2 ^ (3 - r.slot.ks[k].toNat)) 63))
  ∧ ∀ (c : Config) (stepping : Bool) (r5 rate : Nat) (shiftLock : BitVec 4) (lowLock : BitVec 2),
      let sum := (rate / 4 + shiftLock.toNat) % 16
      stepCode c stepping r5 rate shiftLock lowLock =
        (if r5 = 0 ∨ stepping = false then 0
         else if rate < 48 then
           if sum = 12 then 1 else if sum = 13 then rate / 2 % 2 else if sum = 14 then rate % 2 else 0
         else min ((c.egStepHi.getD (rate % 4) []).getD lowLock.toNat 0 + rate / 4 - 11) 4)

/-! ### Operator network -/

/-- `48_operator_network.md` R291, R294 to R298: at the visit of a slot its output is the folded log-sine plus attenuation
through the antilog table, under the sign of the phase (the function `OperatorShape` is about); the first operator's last
output moves to its history. -/
def Obligations.OperatorOutput : Prop :=
  ∀ (s : State) (k : Fin 24), s.Inv → s.tickStarts = true → s.cur.rst.ic = false → s.cur.frontSlot = some k →
    ∃ t : State, step s = .next t
    ∧ (let ph := (s.cur.pg.phase[k].toNat / 1024 + s.cur.op.modIn.toNat) % 1024
       let q8 := if ph / 256 % 2 = 1 then 255 - ph % 256 else ph % 256
       let lg := min (s.cfg.logsin.getD q8 0 + 4 * s.cur.eg.out[k].toNat) 0x1FFF
       let mag := ((s.cfg.exprom.getD (255 - lg % 256) 0 ||| 0x400) * 4) / 2 ^ (lg / 256)
       t.nxt.op.opOut[k].toInt = (if ph / 512 = 1 then -(mag : Int) else (mag : Int))
       ∧ t.nxt.op.opOut[k] = operatorOut s.cfg (BitVec.ofNat 10 ph) s.cur.eg.out[k]
       ∧ ∀ c : Fin 6, t.nxt.op.op1Prev[c] =
           if k.val = c.val then s.cur.op.opOut[k] else s.cur.op.op1Prev[c])

/-- R293, R294, R297: half a turn of the phase negates an operator's output; under the default antilog table the output is
within `-8168 .. 8168`; under any table of 10-bit entries a fully attenuated operator outputs 0. -/
def Obligations.OperatorShape : Prop :=
  (∀ (c : Config) (ph eg : BitVec 10), operatorOut c (ph + 512) eg = -operatorOut c ph eg)
  ∧ (∀ ph eg : BitVec 10,
      -8168 ≤ (operatorOut Config.mono ph eg).toInt ∧ (operatorOut Config.mono ph eg).toInt ≤ 8168)
  ∧ ∀ (c : Config) (ph : BitVec 10), tableOf 256 1024 c.exprom = true → operatorOut c ph 0x3FF = 0

/-- R299, `44_timing_sequencer.md` R208, R209: the modulation input prepared in every tick out of reset for the slot at the next
scan position, its sources those of the operator in the routing row of the channel's algorithm. (That a routing table too
short gives an empty row is the model's choice, log entry 18.) -/
def Obligations.ModulationInput : Prop :=
  ∀ s : State, s.tickStarts = true → s.cur.rst.ic = false → ∃ t : State, step s = .next t
    ∧ (let p := (4 * s.cur.scan.regCnt2.toNat + s.cur.scan.regCnt1.toNat + 1) % 32
       let out (k : Fin 24) : Int := s.cur.op.opOut[k].toInt
       (p % 4 = 3 → t.nxt.op.modIn = 0)
       ∧ ∀ c : Fin 6, p % 4 ≠ 3 → c.val = 3 * (p / 4 % 2) + p % 4 →
         (p / 8 = 0 → t.nxt.op.modIn =
             if s.cur.chan.fb[c] = 0 then 0
             else BitVec.ofInt 10 ((out (slotOf 0 c) + s.cur.op.op1Prev[c].toInt) / 2 ^ (10 - s.cur.chan.fb[c].toNat)))
         ∧ (p / 8 ≠ 0 →
             (let row := s.cfg.routing.getD s.cur.chan.alg[c].toNat { srcOp2 := [], srcOp3 := [], srcOp4 := [], taps := [] }
              let src := match p / 8 with | 1 => row.srcOp3 | 2 => row.srcOp2 | _ => row.srcOp4
              let term (z : OpName) (k : Fin 24) : Int := if src.contains z then out k else 0
              t.nxt.op.modIn = BitVec.ofInt 10
                ((term .op1 (slotOf 0 c) + term .op2 (slotOf 2 c) + term .op3 (slotOf 1 c)) / 2))))

/-! ### Accumulator and output -/

/-- `49_accumulator_dac.md` R311 to R313: the channel accumulator at the visit of a slot. An operator contributes if it is a tap
in the routing row of the channel's algorithm (`44_timing_sequencer.md` R208, R209); the accumulator has 9 bits in `VAR_MONO`
and 14 in `VAR_STEREO` (`10_state.md` R36). -/
def Obligations.ChannelAccumulates : Prop :=
  ∀ (s : State) (k : Fin 24), s.Inv → s.tickStarts = true → s.cur.rst.ic = false → s.cur.frontSlot = some k →
    ∃ t : State, step s = .next t
    ∧ (let c : Fin 6 := ⟨k.val % 6, by omega⟩
       let w : Nat := match s.cfg.variant with | .mono => 9 | .stereo => 14
       let x : OpName := match k.val / 6 with | 0 => .op1 | 1 => .op3 | 2 => .op2 | _ => .op4
       let row := s.cfg.routing.getD s.cur.chan.alg[c].toNat { srcOp2 := [], srcOp3 := [], srcOp4 := [], taps := [] }
       let v : Int := if row.taps.contains x then s.cur.op.opOut[k].toInt / 2 ^ (14 - w) else 0
       let top : Int := 2 ^ (w - 1)
       s.cfg.accBits = w
       ∧ (k.val < 6 → t.nxt.acc.chOut[c] = s.cur.acc.chAcc[c] ∧ t.nxt.acc.chAcc[c] = max (-top) (min v (top - 1)))
       ∧ (6 ≤ k.val → t.nxt.acc.chOut[c] = s.cur.acc.chOut[c]
           ∧ t.nxt.acc.chAcc[c] = max (-top) (min (s.cur.acc.chAcc[c] + v) (top - 1))))

/-- R317, R318: the mono output multiplexer. (In a tick of `dac_load` with no front channel it shows the override or
a sample the rule does not give, a free value within the nine bits, log entry 9.) -/
def Obligations.MonoOutputLoads : Prop :=
  ∀ s : State, s.cfg.variant = .mono → s.tickStarts = true → s.cur.rst.ic = false → ∃ t : State, step s = .next t
    ∧ (let e := enables s.cfg s.cur
       let dacs : Int := 2 * s.cur.glob.dacData.toNat + (if s.cur.glob.test2c[3] then 1 else 0) - 256
       (e.dacLoad = false → t.nxt.acc.monoOut = s.cur.acc.monoOut)
       ∧ (e.dacLoad = true → e.dacOutSel = true → s.cur.glob.dacEn = true → t.nxt.acc.monoOut = dacs)
       ∧ (e.dacLoad = true → e.dacOutSel = false ∨ s.cur.glob.dacEn = false →
           (∀ c : Fin 6, s.cur.frontChan = some c → t.nxt.acc.monoOut = s.cur.acc.chOut[c])
           ∧ (s.cur.frontChan = none → signedIn 9 t.nxt.acc.monoOut)))

/-- R315, R316, R318, R319: the panned mix at the first operator's visits, and the word load. -/
def Obligations.StereoMixes : Prop :=
  ∀ s : State, s.Inv → s.cfg.variant = .stereo → s.tickStarts = true → s.cur.rst.ic = false →
    ∃ t : State, step s = .next t
    ∧ (let e := enables s.cfg s.cur
       let dacs : Int := 2 * s.cur.glob.dacData.toNat + (if s.cur.glob.test2c[3] then 1 else 0) - 256
       let top : Int := 2 ^ (s.cfg.dacWordBits - 1)
       let w := s.cfg.dacWordBits
       (∀ c : Fin 6, s.cur.frontSlot = some (slotOf 0 c) →
         (let x := if e.dacOutSel = true ∧ s.cur.glob.dacEn = true then dacs * 32 else s.cur.acc.chAcc[c]
          t.nxt.acc.mixL = max (-top) (min
            ((if c = 0 then 0 else s.cur.acc.mixL) + if s.cur.chan.panL[c] then x else 0) (top - 1))
          ∧ t.nxt.acc.mixR = max (-top) (min
            ((if c = 0 then 0 else s.cur.acc.mixR) + if s.cur.chan.panR[c] then x else 0) (top - 1))))
       ∧ ((∀ c : Fin 6, s.cur.frontSlot ≠ some (slotOf 0 c)) →
           t.nxt.acc.mixL = s.cur.acc.mixL ∧ t.nxt.acc.mixR = s.cur.acc.mixR)
       ∧ (e.dacLoad = true → (t.nxt.acc.dacWord : Int) / 2 ^ w = s.cur.acc.mixL % 2 ^ w
           ∧ (t.nxt.acc.dacWord : Int) % 2 ^ w = s.cur.acc.mixR % 2 ^ w)
       ∧ (e.dacLoad = false → t.nxt.acc.dacWord = s.cur.acc.dacWord))

/-- R107, R108, R321: the divided clocks and the serializer. `VAR_MONO` has neither. A sample counts as one in reset if `ic.cur`
is 1 before its commit or after it, and the serializer reads the enable record after the commit (the model's reading, log
entry 8). -/
def Obligations.SerializerShifts : Prop :=
  ∀ s : State, s.cfg.wf = true → ∃ t : State, step s = .next t
    ∧ (let j := s.raw.dclkCnt
       let inReset := s.cur.rst.ic = true ∨ t.cur.rst.ic = true
       let clocked := s.cfg.variant = .stereo ∧ s.rises = true
       let w := 2 * s.cfg.dacWordBits
       let e := enables s.cfg t.cur
       let v := if e.shLoad then t.cur.acc.dacWord else 2 * s.raw.dacSr % 2 ^ w
       let held := t.raw.dacSr = s.raw.dacSr ∧ t.raw.so = s.raw.so ∧ t.raw.wc = s.raw.wc ∧ t.raw.lrc = s.raw.lrc
       t.raw.dclkCnt = (if s.cfg.variant = .stereo ∧ s.rises = true then (j + 1) % s.cfg.dclkPeriod else j)
       ∧ (inReset → t.SerialIdle)
       ∧ (¬inReset → clocked → j = 0 → t.raw.dacSr = v ∧ t.raw.so = v.testBit (w - 1) ∧ t.raw.lrc = e.shLr
           ∧ t.raw.wc = e.shWc ∧ t.raw.bck = true)
       ∧ (¬inReset → clocked → j = s.cfg.dclkPeriod / 2 → held ∧ t.raw.bck = false)
       ∧ (¬inReset → ¬clocked ∨ (j ≠ 0 ∧ j ≠ s.cfg.dclkPeriod / 2) → held ∧ t.raw.bck = s.raw.bck))
end

