-- ==== Sys2Proof/Laws/State.lean ====
section
/-! SUPPORT. What each update of the state leaves and changes, one field at a time. Every lemma is true by unfolding. -/

namespace Sys2Proof.Machine.State

/-! ### Taking the input, detecting the edge -/

@[simp] theorem takeInput_cfg (s : State) : s.takeInput.cfg = s.cfg := rfl
@[simp] theorem takeInput_raw (s : State) : s.takeInput.raw = s.raw := rfl
@[simp] theorem takeInput_cur (s : State) : s.takeInput.cur = s.cur := rfl
@[simp] theorem takeInput_nxt (s : State) : s.takeInput.nxt = s.nxt := rfl
@[simp] theorem takeInput_pins (s : State) : s.takeInput.pins = s.nextPins := rfl
@[simp] theorem takeInput_host (s : State) : s.takeInput.host = s.host.tail := rfl
@[simp] theorem takeInput_out (s : State) : s.takeInput.out = s.out := rfl

@[simp] theorem detectEdge_cfg (s : State) : s.detectEdge.cfg = s.cfg := rfl
@[simp] theorem detectEdge_cur (s : State) : s.detectEdge.cur = s.cur := rfl
@[simp] theorem detectEdge_nxt (s : State) : s.detectEdge.nxt = s.nxt := rfl
@[simp] theorem detectEdge_pins (s : State) : s.detectEdge.pins = s.pins := rfl
@[simp] theorem detectEdge_host (s : State) : s.detectEdge.host = s.host := rfl
@[simp] theorem detectEdge_out (s : State) : s.detectEdge.out = s.out := rfl
@[simp] theorem detectEdge_oscHist (s : State) :
    s.detectEdge.raw.oscHist = s.raw.oscHist.extractLsb' 0 1 ++ BitVec.ofBool s.pins.clock := rfl
@[simp] theorem detectEdge_prescCnt (s : State) : s.detectEdge.raw.prescCnt = s.raw.prescCnt := rfl
@[simp] theorem detectEdge_dclkCnt (s : State) : s.detectEdge.raw.dclkCnt = s.raw.dclkCnt := rfl
@[simp] theorem detectEdge_dataLatch (s : State) : s.detectEdge.raw.dataLatch = s.raw.dataLatch := rfl
@[simp] theorem detectEdge_bankLatch (s : State) : s.detectEdge.raw.bankLatch = s.raw.bankLatch := rfl
@[simp] theorem detectEdge_waPrev (s : State) : s.detectEdge.raw.waPrev = s.raw.waPrev := rfl
@[simp] theorem detectEdge_wdPrev (s : State) : s.detectEdge.raw.wdPrev = s.raw.wdPrev := rfl
@[simp] theorem detectEdge_waPend (s : State) : s.detectEdge.raw.waPend = s.raw.waPend := rfl
@[simp] theorem detectEdge_wdPend (s : State) : s.detectEdge.raw.wdPend = s.raw.wdPend := rfl
@[simp] theorem detectEdge_dacSr (s : State) : s.detectEdge.raw.dacSr = s.raw.dacSr := rfl
@[simp] theorem detectEdge_so (s : State) : s.detectEdge.raw.so = s.raw.so := rfl
@[simp] theorem detectEdge_wc (s : State) : s.detectEdge.raw.wc = s.raw.wc := rfl
@[simp] theorem detectEdge_lrc (s : State) : s.detectEdge.raw.lrc = s.raw.lrc := rfl
@[simp] theorem detectEdge_bck (s : State) : s.detectEdge.raw.bck = s.raw.bck := rfl

/-! ### The pin side and the data outputs of a bus operation -/

@[simp] theorem pinSide_cfg (s : State) (wa wd b d) : (s.pinSide wa wd b d).cfg = s.cfg := rfl
@[simp] theorem pinSide_cur (s : State) (wa wd b d) : (s.pinSide wa wd b d).cur = s.cur := rfl
@[simp] theorem pinSide_nxt (s : State) (wa wd b d) : (s.pinSide wa wd b d).nxt = s.nxt := rfl
@[simp] theorem pinSide_pins (s : State) (wa wd b d) : (s.pinSide wa wd b d).pins = s.pins := rfl
@[simp] theorem pinSide_host (s : State) (wa wd b d) : (s.pinSide wa wd b d).host = s.host := rfl
@[simp] theorem pinSide_out (s : State) (wa wd b d) : (s.pinSide wa wd b d).out = s.out := rfl

@[simp] theorem driveData_cfg (s : State) (r a) : (s.driveData r a).cfg = s.cfg := rfl
@[simp] theorem driveData_raw (s : State) (r a) : (s.driveData r a).raw = s.raw := rfl
@[simp] theorem driveData_cur (s : State) (r a) : (s.driveData r a).cur = s.cur := rfl
@[simp] theorem driveData_nxt (s : State) (r a) : (s.driveData r a).nxt = s.nxt := rfl
@[simp] theorem driveData_pins (s : State) (r a) : (s.driveData r a).pins = s.pins := rfl
@[simp] theorem driveData_host (s : State) (r a) : (s.driveData r a).host = s.host := rfl

/-! ### Writes of `next` halves -/

@[simp] theorem setGlob_cfg (s : State) (g) : (s.setGlob g).cfg = s.cfg := rfl
@[simp] theorem setGlob_raw (s : State) (g) : (s.setGlob g).raw = s.raw := rfl
@[simp] theorem setGlob_cur (s : State) (g) : (s.setGlob g).cur = s.cur := rfl
@[simp] theorem setGlob_pins (s : State) (g) : (s.setGlob g).pins = s.pins := rfl
@[simp] theorem setGlob_host (s : State) (g) : (s.setGlob g).host = s.host := rfl
@[simp] theorem setGlob_out (s : State) (g) : (s.setGlob g).out = s.out := rfl
@[simp] theorem setGlob_nxt (s : State) (g) : (s.setGlob g).nxt = { s.nxt with glob := g } := rfl

@[simp] theorem setChan_cfg (s : State) (g) : (s.setChan g).cfg = s.cfg := rfl
@[simp] theorem setChan_raw (s : State) (g) : (s.setChan g).raw = s.raw := rfl
@[simp] theorem setChan_cur (s : State) (g) : (s.setChan g).cur = s.cur := rfl
@[simp] theorem setChan_pins (s : State) (g) : (s.setChan g).pins = s.pins := rfl
@[simp] theorem setChan_host (s : State) (g) : (s.setChan g).host = s.host := rfl
@[simp] theorem setChan_out (s : State) (g) : (s.setChan g).out = s.out := rfl
@[simp] theorem setChan_nxt (s : State) (g) : (s.setChan g).nxt = { s.nxt with chan := g } := rfl

/-! ### Phase 1 -/

@[simp] theorem phase1_cfg (s : State) : s.phase1.cfg = s.cfg := rfl
@[simp] theorem phase1_cur (s : State) : s.phase1.cur = s.cur := rfl
@[simp] theorem phase1_nxt (s : State) : s.phase1.nxt = phase1Regs s := rfl
@[simp] theorem phase1_pins (s : State) : s.phase1.pins = s.pins := rfl
@[simp] theorem phase1_host (s : State) : s.phase1.host = s.host := rfl
@[simp] theorem phase1_out (s : State) : s.phase1.out = s.out := rfl
@[simp] theorem phase1_oscHist (s : State) : s.phase1.raw.oscHist = s.raw.oscHist := rfl
@[simp] theorem phase1_prescCnt (s : State) : s.phase1.raw.prescCnt = s.raw.prescCnt := rfl
@[simp] theorem phase1_dclkCnt (s : State) : s.phase1.raw.dclkCnt = s.raw.dclkCnt := rfl
@[simp] theorem phase1_dataLatch (s : State) : s.phase1.raw.dataLatch = s.raw.dataLatch := rfl
@[simp] theorem phase1_bankLatch (s : State) : s.phase1.raw.bankLatch = s.raw.bankLatch := rfl
@[simp] theorem phase1_waPrev (s : State) : s.phase1.raw.waPrev = s.raw.waPrev := rfl
@[simp] theorem phase1_wdPrev (s : State) : s.phase1.raw.wdPrev = s.raw.wdPrev := rfl
@[simp] theorem phase1_waPend (s : State) : s.phase1.raw.waPend = false := rfl
@[simp] theorem phase1_wdPend (s : State) : s.phase1.raw.wdPend = false := rfl
@[simp] theorem phase1_dacSr (s : State) : s.phase1.raw.dacSr = s.raw.dacSr := rfl
@[simp] theorem phase1_so (s : State) : s.phase1.raw.so = s.raw.so := rfl
@[simp] theorem phase1_wc (s : State) : s.phase1.raw.wc = s.raw.wc := rfl
@[simp] theorem phase1_lrc (s : State) : s.phase1.raw.lrc = s.raw.lrc := rfl
@[simp] theorem phase1_bck (s : State) : s.phase1.raw.bck = s.raw.bck := rfl

/-! ### Reset forcing and commit -/

@[simp] theorem forceReset_cfg (s : State) : s.forceReset.cfg = s.cfg := by unfold forceReset; split <;> rfl
@[simp] theorem forceReset_raw (s : State) : s.forceReset.raw = s.raw := by unfold forceReset; split <;> rfl
@[simp] theorem forceReset_cur (s : State) : s.forceReset.cur = s.cur := by unfold forceReset; split <;> rfl
@[simp] theorem forceReset_pins (s : State) : s.forceReset.pins = s.pins := by unfold forceReset; split <;> rfl
@[simp] theorem forceReset_host (s : State) : s.forceReset.host = s.host := by unfold forceReset; split <;> rfl
@[simp] theorem forceReset_out (s : State) : s.forceReset.out = s.out := by unfold forceReset; split <;> rfl
@[simp] theorem forceReset_rst (s : State) : s.forceReset.nxt.rst = s.nxt.rst := by unfold forceReset; split <;> rfl
@[simp] theorem forceReset_scan (s : State) : s.forceReset.nxt.scan = s.nxt.scan := by unfold forceReset; split <;> rfl

@[simp] theorem commit_cfg (s : State) : s.commit.cfg = s.cfg := rfl
@[simp] theorem commit_raw (s : State) : s.commit.raw = s.raw := rfl
@[simp] theorem commit_cur (s : State) : s.commit.cur = s.nxt := rfl
@[simp] theorem commit_nxt (s : State) : s.commit.nxt = s.nxt := rfl
@[simp] theorem commit_pins (s : State) : s.commit.pins = s.pins := rfl
@[simp] theorem commit_host (s : State) : s.commit.host = s.host := rfl
@[simp] theorem commit_out (s : State) : s.commit.out = s.out := rfl

/-! ### The serializer, the clock counters, the output record -/

/-- A sample in reset forces the five serializer latches to 0 (R321, R361), whatever the divided clocks. -/
theorem serialize_inReset (s : State) (a b) : s.serialize true a b =
    { s with raw := { s.raw with dacSr := 0, so := false, wc := false, lrc := false, bck := false } } := rfl
@[simp] theorem serialize_cfg (s : State) (r a b) : (s.serialize r a b).cfg = s.cfg := by
  unfold serialize; split <;> [rfl; (split <;> [rfl; (split <;> rfl)])]
@[simp] theorem serialize_cur (s : State) (r a b) : (s.serialize r a b).cur = s.cur := by
  unfold serialize; split <;> [rfl; (split <;> [rfl; (split <;> rfl)])]
@[simp] theorem serialize_nxt (s : State) (r a b) : (s.serialize r a b).nxt = s.nxt := by
  unfold serialize; split <;> [rfl; (split <;> [rfl; (split <;> rfl)])]
@[simp] theorem serialize_pins (s : State) (r a b) : (s.serialize r a b).pins = s.pins := by
  unfold serialize; split <;> [rfl; (split <;> [rfl; (split <;> rfl)])]
@[simp] theorem serialize_host (s : State) (r a b) : (s.serialize r a b).host = s.host := by
  unfold serialize; split <;> [rfl; (split <;> [rfl; (split <;> rfl)])]
@[simp] theorem serialize_oscHist (s : State) (r a b) : (s.serialize r a b).raw.oscHist = s.raw.oscHist := by
  unfold serialize; split <;> [rfl; (split <;> [rfl; (split <;> rfl)])]
@[simp] theorem serialize_prescCnt (s : State) (r a b) : (s.serialize r a b).raw.prescCnt = s.raw.prescCnt := by
  unfold serialize; split <;> [rfl; (split <;> [rfl; (split <;> rfl)])]
@[simp] theorem serialize_dclkCnt (s : State) (r a b) : (s.serialize r a b).raw.dclkCnt = s.raw.dclkCnt := by
  unfold serialize; split <;> [rfl; (split <;> [rfl; (split <;> rfl)])]
@[simp] theorem serialize_dataLatch (s : State) (r a b) : (s.serialize r a b).raw.dataLatch = s.raw.dataLatch := by
  unfold serialize; split <;> [rfl; (split <;> [rfl; (split <;> rfl)])]
@[simp] theorem serialize_bankLatch (s : State) (r a b) : (s.serialize r a b).raw.bankLatch = s.raw.bankLatch := by
  unfold serialize; split <;> [rfl; (split <;> [rfl; (split <;> rfl)])]
@[simp] theorem serialize_waPrev (s : State) (r a b) : (s.serialize r a b).raw.waPrev = s.raw.waPrev := by
  unfold serialize; split <;> [rfl; (split <;> [rfl; (split <;> rfl)])]
@[simp] theorem serialize_wdPrev (s : State) (r a b) : (s.serialize r a b).raw.wdPrev = s.raw.wdPrev := by
  unfold serialize; split <;> [rfl; (split <;> [rfl; (split <;> rfl)])]
@[simp] theorem serialize_waPend (s : State) (r a b) : (s.serialize r a b).raw.waPend = s.raw.waPend := by
  unfold serialize; split <;> [rfl; (split <;> [rfl; (split <;> rfl)])]
@[simp] theorem serialize_wdPend (s : State) (r a b) : (s.serialize r a b).raw.wdPend = s.raw.wdPend := by
  unfold serialize; split <;> [rfl; (split <;> [rfl; (split <;> rfl)])]

@[simp] theorem advanceClocks_cfg (s : State) : s.advanceClocks.cfg = s.cfg := by unfold advanceClocks; split <;> rfl
@[simp] theorem advanceClocks_cur (s : State) : s.advanceClocks.cur = s.cur := by unfold advanceClocks; split <;> rfl
@[simp] theorem advanceClocks_nxt (s : State) : s.advanceClocks.nxt = s.nxt := by unfold advanceClocks; split <;> rfl
@[simp] theorem advanceClocks_pins (s : State) : s.advanceClocks.pins = s.pins := by unfold advanceClocks; split <;> rfl
@[simp] theorem advanceClocks_host (s : State) : s.advanceClocks.host = s.host := by unfold advanceClocks; split <;> rfl
@[simp] theorem advanceClocks_oscHist (s : State) : s.advanceClocks.raw.oscHist = s.raw.oscHist := by
  unfold advanceClocks; split <;> rfl
@[simp] theorem advanceClocks_dataLatch (s : State) : s.advanceClocks.raw.dataLatch = s.raw.dataLatch := by
  unfold advanceClocks; split <;> rfl
@[simp] theorem advanceClocks_bankLatch (s : State) : s.advanceClocks.raw.bankLatch = s.raw.bankLatch := by
  unfold advanceClocks; split <;> rfl
@[simp] theorem advanceClocks_waPrev (s : State) : s.advanceClocks.raw.waPrev = s.raw.waPrev := by
  unfold advanceClocks; split <;> rfl
@[simp] theorem advanceClocks_wdPrev (s : State) : s.advanceClocks.raw.wdPrev = s.raw.wdPrev := by
  unfold advanceClocks; split <;> rfl
@[simp] theorem advanceClocks_waPend (s : State) : s.advanceClocks.raw.waPend = s.raw.waPend := by
  unfold advanceClocks; split <;> rfl
@[simp] theorem advanceClocks_wdPend (s : State) : s.advanceClocks.raw.wdPend = s.raw.wdPend := by
  unfold advanceClocks; split <;> rfl
@[simp] theorem advanceClocks_dacSr (s : State) : s.advanceClocks.raw.dacSr = s.raw.dacSr := by
  unfold advanceClocks; split <;> rfl
@[simp] theorem advanceClocks_so (s : State) : s.advanceClocks.raw.so = s.raw.so := by
  unfold advanceClocks; split <;> rfl
@[simp] theorem advanceClocks_wc (s : State) : s.advanceClocks.raw.wc = s.raw.wc := by
  unfold advanceClocks; split <;> rfl
@[simp] theorem advanceClocks_lrc (s : State) : s.advanceClocks.raw.lrc = s.raw.lrc := by
  unfold advanceClocks; split <;> rfl
@[simp] theorem advanceClocks_bck (s : State) : s.advanceClocks.raw.bck = s.raw.bck := by
  unfold advanceClocks; split <;> rfl
theorem advanceClocks_prescCnt (s : State) :
    s.advanceClocks.raw.prescCnt = if s.rise then (s.raw.prescCnt + 1) % s.cfg.prescPeriod else s.raw.prescCnt := by
  unfold advanceClocks; split <;> rfl
theorem advanceClocks_dclkCnt (s : State) :
    s.advanceClocks.raw.dclkCnt
      = if s.rise && s.hasDclk then (s.raw.dclkCnt + 1) % s.cfg.dclkPeriod else s.raw.dclkCnt := by
  unfold advanceClocks; cases s.rise <;> cases s.hasDclk <;> rfl

@[simp] theorem drive_cfg (s : State) : s.drive.cfg = s.cfg := rfl
@[simp] theorem drive_raw (s : State) : s.drive.raw = s.raw := rfl
@[simp] theorem drive_cur (s : State) : s.drive.cur = s.cur := rfl
@[simp] theorem drive_nxt (s : State) : s.drive.nxt = s.nxt := rfl
@[simp] theorem drive_pins (s : State) : s.drive.pins = s.pins := rfl
@[simp] theorem drive_host (s : State) : s.drive.host = s.host := rfl

end Sys2Proof.Machine.State
end

