-- ==== Sys2Proof/Laws/Exec.lean ====
section
/-! SUPPORT. What `exec` can do: it always answers a next state; a bus operation changes the pin-side latches and the data
outputs only, a register write the `next` halves of the three register files only. -/

namespace Sys2Proof

/-- The instruction is a bus operation (`spec/30_encoding.md` R81). -/
def Instr.isBus : Instr → Bool
  | .idle _ | .waddr _ _ _ | .wdata _ _ _ | .rstat | .rfloat _ => true
  | .test1 _ | .lfo _ | .reserved23 _ | .taHi _ | .taLo _ | .tb _ | .mode _ | .keyon _ | .reserved29 _ | .dacdata _
  | .dacen _ | .test2 _ => false
  | .dtMul _ _ _ _ | .tl _ _ _ _ | .ksAr _ _ _ _ | .amDr _ _ _ _ | .sr _ _ _ _ | .slRr _ _ _ _ | .ssgeg _ _ _ _ => false
  | .fnumLo _ _ _ | .fnumHi _ _ _ | .fnum3Lo _ _ | .fnum3Hi _ _ | .fbAlg _ _ _ | .panLfo _ _ _ => false
  | .reserved _ _ _ => false

/-- The pin word decodes to a bus operation. -/
theorem decodeBus_isBus (w : BitVec 5) (d : Byte) : (decodeBus w d).isBus = true := by
  unfold decodeBus
  repeat' split
  all_goals rfl

theorem decodeGlobal_isBus (a : Byte) (d : Byte) : (decodeGlobal a d).isBus = false := by
  unfold decodeGlobal
  split <;> rfl

theorem decodeSlot_isBus (b : BitVec 1) (a : Byte) (d : Byte) : (decodeSlot b a d).isBus = false := by
  unfold decodeSlot
  dsimp only
  split <;> rfl

theorem decodeChan_isBus (b : BitVec 1) (a : Byte) (d : Byte) : (decodeChan b a d).isBus = false := by
  unfold decodeChan
  dsimp only
  split <;> [rfl; rfl; (split <;> rfl); (split <;> rfl); rfl; rfl; rfl]

/-- A register word decodes to a register write. -/
theorem decodeReg_isBus (w : BitVec 9) (d : Byte) : (decodeReg w d).isBus = false := by
  unfold decodeReg
  dsimp only
  split
  · exact decodeGlobal_isBus _ _
  · split
    · exact decodeSlot_isBus _ _ _
    · split
      · exact decodeChan_isBus _ _ _
      · rfl

namespace Machine

/-- The state `exec` answers. -/
def execTo (i : Instr) (s : State) : State :=
  match exec i s with
  | .next t => t
  | .fault _ => s
  | .refused _ => s

/-- `exec` always answers a next state. -/
theorem exec_eq (i : Instr) (s : State) : exec i s = .next (execTo i s) := by cases i <;> rfl

theorem execTo_next {i : Instr} {s t : State} (h : exec i s = .next t) : execTo i s = t := by rw [execTo, h]

/-! ### Register writes -/

theorem writeSlot_frame (s : State) (k : Option (Fin 24)) (f : Fin 24 → SlotRegs → SlotRegs) :
    s.writeSlot k f = { s with nxt := { s.nxt with slot := (s.writeSlot k f).nxt.slot } } := by
  cases k <;> rfl

theorem writeChan_frame {n : Nat} (s : State) (k : Option (Fin n)) (f : Fin n → ChanRegs → ChanRegs) :
    s.writeChan k f = { s with nxt := { s.nxt with chan := (s.writeChan k f).nxt.chan } } := by
  cases k <;> rfl

/-- A register write changes `next` halves of the global mode registers, the slot file and the channel file, and nothing
else. -/
theorem execTo_write {i : Instr} (h : i.isBus = false) (s : State) :
    ∃ g sl ch, execTo i s = { s with nxt := { s.nxt with glob := g, slot := sl, chan := ch } } := by
  cases i
  case dtMul | tl | ksAr | amDr | sr | slRr | ssgeg => exact ⟨_, _, _, (execTo_next rfl).trans (writeSlot_frame s _ _)⟩
  case fnumLo | fnumHi | fnum3Lo | fnum3Hi | fbAlg | panLfo => exact ⟨_, _, _, (execTo_next rfl).trans (writeChan_frame s _ _)⟩
  all_goals first
    | (simp [Instr.isBus] at h; done)
    | exact ⟨_, _, _, rfl⟩

theorem execTo_write_cfg {i : Instr} (h : i.isBus = false) (s : State) : (execTo i s).cfg = s.cfg := by
  obtain ⟨_, _, _, e⟩ := execTo_write h s; rw [e]
theorem execTo_write_raw {i : Instr} (h : i.isBus = false) (s : State) : (execTo i s).raw = s.raw := by
  obtain ⟨_, _, _, e⟩ := execTo_write h s; rw [e]
theorem execTo_write_cur {i : Instr} (h : i.isBus = false) (s : State) : (execTo i s).cur = s.cur := by
  obtain ⟨_, _, _, e⟩ := execTo_write h s; rw [e]
theorem execTo_write_pins {i : Instr} (h : i.isBus = false) (s : State) : (execTo i s).pins = s.pins := by
  obtain ⟨_, _, _, e⟩ := execTo_write h s; rw [e]
theorem execTo_write_host {i : Instr} (h : i.isBus = false) (s : State) : (execTo i s).host = s.host := by
  obtain ⟨_, _, _, e⟩ := execTo_write h s; rw [e]
theorem execTo_write_rst {i : Instr} (h : i.isBus = false) (s : State) : (execTo i s).nxt.rst = s.nxt.rst := by
  obtain ⟨_, _, _, e⟩ := execTo_write h s; rw [e]
theorem execTo_write_scan {i : Instr} (h : i.isBus = false) (s : State) : (execTo i s).nxt.scan = s.nxt.scan := by
  obtain ⟨_, _, _, e⟩ := execTo_write h s; rw [e]
theorem execTo_write_bus {i : Instr} (h : i.isBus = false) (s : State) : (execTo i s).nxt.bus = s.nxt.bus := by
  obtain ⟨_, _, _, e⟩ := execTo_write h s; rw [e]
theorem execTo_write_key {i : Instr} (h : i.isBus = false) (s : State) : (execTo i s).nxt.key = s.nxt.key := by
  obtain ⟨_, _, _, e⟩ := execTo_write h s; rw [e]
theorem execTo_write_eg {i : Instr} (h : i.isBus = false) (s : State) : (execTo i s).nxt.eg = s.nxt.eg := by
  obtain ⟨_, _, _, e⟩ := execTo_write h s; rw [e]
theorem execTo_write_pg {i : Instr} (h : i.isBus = false) (s : State) : (execTo i s).nxt.pg = s.nxt.pg := by
  obtain ⟨_, _, _, e⟩ := execTo_write h s; rw [e]
theorem execTo_write_lfo {i : Instr} (h : i.isBus = false) (s : State) : (execTo i s).nxt.lfo = s.nxt.lfo := by
  obtain ⟨_, _, _, e⟩ := execTo_write h s; rw [e]
theorem execTo_write_op {i : Instr} (h : i.isBus = false) (s : State) : (execTo i s).nxt.op = s.nxt.op := by
  obtain ⟨_, _, _, e⟩ := execTo_write h s; rw [e]
theorem execTo_write_acc {i : Instr} (h : i.isBus = false) (s : State) : (execTo i s).nxt.acc = s.nxt.acc := by
  obtain ⟨_, _, _, e⟩ := execTo_write h s; rw [e]
theorem execTo_write_tmr {i : Instr} (h : i.isBus = false) (s : State) : (execTo i s).nxt.tmr = s.nxt.tmr := by
  obtain ⟨_, _, _, e⟩ := execTo_write h s; rw [e]

/-! ### Bus operations -/

/-- A bus operation is the pin side and the data outputs of R121 to R124 and R131, for some strobes, bank and byte. -/
theorem execTo_bus {i : Instr} (h : i.isBus = true) (s : State) :
    ∃ wa wd b d r a, execTo i s = (s.pinSide wa wd b d).driveData r a := by
  cases i
  all_goals first
    | (simp [Instr.isBus] at h; done)
    | exact ⟨_, _, _, _, _, _, rfl⟩

/-- The raw latches a bus operation leaves alone. -/
theorem pinSide_raw (s : State) (wa wd : Bool) (b : BitVec 1) (d : Byte) :
    ∃ dl bl p q x y, (s.pinSide wa wd b d).raw
      = { s.raw with dataLatch := dl, bankLatch := bl, waPend := p, wdPend := q, waPrev := x, wdPrev := y } := by
  unfold State.pinSide
  cases s.cur.rst.ic <;> exact ⟨_, _, _, _, _, _, rfl⟩

end Machine

end Sys2Proof
end

