-- ==== Sys2Proof/Laws/Ops.lean ====
section
/-! SUPPORT. One lemma per shared operation that says what it can do: register files, saturation and wrapping, table lookups,
the enable record of a well-formed configuration. -/

namespace Sys2Proof.Machine

/-! ### Register files -/

/-- Reading element `k` after a write of element `i`. -/
theorem setAt_get {α : Type} {n : Nat} (v : Vector α n) (i k : Fin n) (a : α) :
    (setAt v i a)[k] = if k = i then a else v[k] := by
  unfold setAt
  simp only [Fin.getElem_fin, Vector.getElem_set]
  by_cases h : k = i
  · simp [h]
  · rw [if_neg h, if_neg]
    intro e
    exact h (Fin.ext e.symm)

@[simp] theorem setAt_get_same {α : Type} {n : Nat} (v : Vector α n) (i : Fin n) (a : α) : (setAt v i a)[i] = a := by
  rw [setAt_get, if_pos rfl]

theorem setAt_get_other {α : Type} {n : Nat} (v : Vector α n) {i k : Fin n} (a : α) (h : k ≠ i) :
    (setAt v i a)[k] = v[k] := by
  rw [setAt_get, if_neg h]

/-- A property of every element survives a write that has it. -/
theorem setAt_forall {α : Type} {n : Nat} {p : Fin n → α → Prop} {v : Vector α n} {i : Fin n} {a : α}
    (hv : ∀ k, p k v[k]) (ha : p i a) : ∀ k, p k (setAt v i a)[k] := by
  intro k
  rw [setAt_get]
  split
  · next h => exact h ▸ ha
  · exact hv k

/-! ### Saturation and wrapping -/

/-- `satS` stays in its width. -/
theorem satS_bounds (w : Nat) (v : Int) : -(2 ^ (w - 1)) ≤ satS w v ∧ satS w v ≤ 2 ^ (w - 1) - 1 := by
  have h : (0 : Int) < 2 ^ (w - 1) := by positivity
  unfold satS
  split
  · omega
  · split <;> omega

/-- `satS` changes nothing inside its width. -/
theorem satS_of_bounds {w : Nat} {v : Int} (h1 : -(2 ^ (w - 1)) ≤ v) (h2 : v ≤ 2 ^ (w - 1) - 1) : satS w v = v := by
  unfold satS
  rw [if_neg (by omega), if_neg (by omega)]

/-- `satU` stays in its width. -/
theorem satU_lt (w v : Nat) : satU w v < 2 ^ w := by
  have h : 0 < 2 ^ w := by positivity
  unfold satU
  omega

/-- `wrap` stays in its width. -/
theorem wrap_lt (w : Nat) (v : Int) : wrap w v < 2 ^ w := by
  have h : (0 : Int) < 2 ^ w := by positivity
  have h1 := Int.emod_nonneg v h.ne'
  have h2 := Int.emod_lt_of_pos v h
  have h3 : ((wrap w v : Nat) : Int) = v % 2 ^ w := by rw [wrap, Int.toNat_of_nonneg h1]
  have h4 : ((2 ^ w : Nat) : Int) = 2 ^ w := by push_cast; rfl
  omega

/-- The DAC word of two `w`-bit values has `2*w` bits (R319). -/
theorem dacWordOf_lt (w : Nat) (l r : Int) : dacWordOf w l r < 2 ^ (2 * w) := by
  have h1 := wrap_lt w l
  have h2 := wrap_lt w r
  have h3 : (2 : Nat) ^ (2 * w) = 2 ^ w * 2 ^ w := by rw [two_mul, pow_add]
  unfold dacWordOf
  rw [h3]
  calc 2 ^ w * wrap w l + wrap w r < 2 ^ w * wrap w l + 2 ^ w := by omega
    _ = 2 ^ w * (wrap w l + 1) := by ring
    _ ≤ 2 ^ w * 2 ^ w := Nat.mul_le_mul_left _ h1

/-- `ctz` counts at most `n` bits. -/
theorem ctz_le (n x : Nat) : ctz n x ≤ n := by
  induction n generalizing x with
  | zero => simp [ctz]
  | succ n ih =>
    unfold ctz
    split
    · omega
    · have := ih (x / 2); omega

/-! ### Tables -/

/-- A lookup in a table of entries below `m`. -/
theorem entry_lt {n m : Nat} {t : List Nat} (h : tableOf n m t = true) (hm : 0 < m) (i : Nat) : entry t i < m := by
  simp only [tableOf, Bool.and_eq_true, List.all_eq_true, decide_eq_true_eq] at h
  unfold entry
  by_cases hi : i < t.length
  · rw [List.getD_eq_getElem _ _ hi]
    exact h.2 _ (List.getElem_mem hi)
  · rw [List.getD_eq_default _ _ (by omega)]
    exact hm

/-- The magnitude of an operator output (R297). -/
theorem magnitude_le {c : Config} (h : tableOf 256 1024 c.exprom = true) (lg : Nat) : magnitude c lg ≤ 8188 := by
  have h1 : entry c.exprom (255 - lg % 256) < 2 ^ 11 := by have := entry_lt h (by norm_num) (255 - lg % 256); omega
  have h2 : entry c.exprom (255 - lg % 256) ||| 0x400 < 2 ^ 11 := Nat.or_lt_two_pow h1 (by norm_num)
  unfold magnitude
  rw [Nat.shiftRight_eq_div_pow, Nat.shiftLeft_eq]
  have h3 := Nat.div_le_self ((entry c.exprom (255 - lg % 256) ||| 0x400) * 2 ^ 2) (2 ^ (lg / 256))
  omega

/-- An operator output as an integer: its magnitude under the sign of the phase (R297). -/
theorem operatorOut_toInt {c : Config} (h : tableOf 256 1024 c.exprom = true) (ph eg : BitVec 10) :
    (operatorOut c ph eg).toInt
      = if ph.getLsbD 9 then -(magnitude c (logSum c ph eg) : Int) else magnitude c (logSum c ph eg) := by
  have h1 := magnitude_le h (logSum c ph eg)
  unfold operatorOut
  dsimp only
  rw [BitVec.toInt_ofInt]
  split <;> (rw [Int.bmod_def]; omega)

/-! ### The enable record of a well-formed table (R205) -/

/-- Every record of a checked list passes its check. -/
theorem fsmRecsOk_getD {q : Nat} {t : List FsmRec} (h : fsmRecsOk q t = true) {i : Nat} (hi : i < t.length) :
    fsmRecOk (q + i) (t.getD i FsmRec.idle) = true := by
  induction t generalizing q i with
  | nil => simp at hi
  | cons r l ih =>
    simp only [fsmRecsOk, Bool.and_eq_true] at h
    cases i with
    | zero => simpa using h.1
    | succ i =>
      have := ih h.2 (i := i) (by simpa using hi)
      rw [List.getD_cons_succ, ← Nat.add_assoc, Nat.add_right_comm]
      exact this

theorem fsmTableWf_getD {t : List FsmRec} (h : fsmTableWf t = true) {i : Nat} (hi : i < 32) :
    fsmRecOk i (t.getD i FsmRec.idle) = true := by
  simp only [fsmTableWf, Bool.and_eq_true, beq_iff_eq] at h
  have := fsmRecsOk_getD h.1.1.1.1.2 (i := i) (by omega)
  rwa [Nat.zero_add] at this

/-- The sequencer position is one of 32. -/
theorem q_lt (r : Regs) : r.q < 32 := by
  have := r.scan.fsmCnt1.isLt
  have := r.scan.fsmCnt2.isLt
  unfold Regs.q
  omega

/-- The scan position is one of 32. -/
theorem pos5_lt (r : Regs) : r.pos5 < 32 := by
  have := r.scan.regCnt1.isLt
  have := r.scan.regCnt2.isLt
  unfold Regs.pos5
  omega

/-- The enable record of a tick passes the check of its position. -/
theorem enables_ok {c : Config} (h : c.fsmOk = true) (r : Regs) : fsmRecOk r.q (enables c r) = true := by
  simp only [Config.fsmOk, Bool.and_eq_true] at h
  unfold enables Config.fsmTable
  split
  · exact fsmTableWf_getD h.1.1 (q_lt r)
  · exact fsmTableWf_getD h.1.2 (q_lt r)

/-- `restart` is at position 31 only. -/
theorem enables_restart {c : Config} (h : c.fsmOk = true) (r : Regs) : (enables c r).restart = (r.q == 31) := by
  have := enables_ok h r
  simp only [fsmRecOk, Bool.and_eq_true, beq_iff_eq] at this
  exact this.2

/-- `ch3_sel` is where channel 2 is in front. -/
theorem enables_ch3Sel {c : Config} (h : c.fsmOk = true) (r : Regs) : (enables c r).ch3Sel = (r.q % 8 == 2) := by
  have := enables_ok h r
  simp only [fsmRecOk, Bool.and_eq_true, beq_iff_eq] at this
  exact this.1.2

/-- Off the gaps, exactly the pulse of the position `q div 8` is 1. -/
theorem enables_selOp {c : Config} (h : c.fsmOk = true) (r : Regs) (hg : r.q % 4 ≠ 3) {k : Nat} (hk : k < 4) :
    (enables c r).selOp k = (r.q / 8 == k) := by
  have := enables_ok h r
  simp only [fsmRecOk, Bool.and_eq_true, beq_iff_eq, if_neg hg, List.all_cons, List.all_nil, Bool.and_true] at this
  obtain ⟨⟨⟨h0, h1, h2, h3⟩, _⟩, _⟩ := this
  interval_cases k <;> assumption

/-! ### Slots and scan positions -/

/-- The slot in front is at the scan position of its number (R24). -/
theorem slotAt_some {cnt2 : BitVec 3} {cnt1 : BitVec 2} {s : Fin 24} (h : slotAt cnt2 cnt1 = some s) :
    cnt1.toNat < 3 ∧ s.val = 6 * (cnt2.toNat / 2) + 3 * (cnt2.toNat % 2) + cnt1.toNat := by
  unfold slotAt at h
  split at h
  · next hc => cases h; exact ⟨hc, rfl⟩
  · cases h

/-- No slot is in front at a gap, and only there (R142). -/
theorem slotAt_none {cnt2 : BitVec 3} {cnt1 : BitVec 2} : slotAt cnt2 cnt1 = none ↔ cnt1 = 3 := by
  revert cnt2 cnt1; decide

/-- A stage visits the front slot and no other. -/
theorem visited_front {e : FsmRec} {r : Regs} {s : Fin 24} (h : visited e r = some s) : r.frontSlot = some s := by
  unfold visited at h
  cases hf : r.frontSlot with
  | none => rw [hf] at h; cases h
  | some k =>
    rw [hf] at h
    dsimp only at h
    split at h
    · exact h
    · cases h

/-- In a machine whose counters are locked (R202), the front slot is visited in every tick (R203, R205). -/
theorem visited_eq {c : Config} (h : c.fsmOk = true) {r : Regs} (h1 : r.scan.regCnt1 = r.scan.fsmCnt1)
    (h2 : r.scan.regCnt2 = r.scan.fsmCnt2) : visited (enables c r) r = r.frontSlot := by
  unfold visited
  cases hf : r.frontSlot with
  | none => rfl
  | some s =>
    dsimp only
    obtain ⟨hc, hs⟩ := slotAt_some hf
    have hq : r.q = 4 * r.scan.regCnt2.toNat + r.scan.regCnt1.toNat := by rw [Regs.q, h1, h2]
    have h3 := r.scan.regCnt2.isLt
    have hp : (posOf s).val = r.q / 8 := by
      simp only [posOf, hs, hq]
      omega
    rw [enables_selOp h r (by omega) (by omega), hp]
    simp

/-- R254: the EG quotient at phase 1, under a prescale of at most 4. -/
theorem egGlobalNext_quot {c : Config} (h1 : 1 ≤ c.egPrescale) (h4 : c.egPrescale ≤ 4) (e : FsmRec) (g : EgRegs) :
    (egGlobalNext c e g).quot.toNat = if e.egClock then (g.quot.toNat + 1) % c.egPrescale else g.quot.toNat := by
  have hm := Nat.mod_lt (g.quot.toNat + 1) (show 0 < c.egPrescale by omega)
  have hb : (BitVec.ofNat 2 ((g.quot.toNat + 1) % c.egPrescale)).toNat = (g.quot.toNat + 1) % c.egPrescale := by
    rw [BitVec.toNat_ofNat, Nat.mod_eq_of_lt (by omega)]
  unfold egGlobalNext
  split
  · dsimp only; split <;> exact hb
  · rfl

/-- The increment code is at most 4 (R263). -/
theorem stepCode_le (c : Config) (w : Bool) (r5 rate : Nat) (sh : BitVec 4) (lo : BitVec 2) :
    stepCode c w r5 rate sh lo ≤ 4 := by
  unfold stepCode
  dsimp only
  split
  · omega
  · split
    · split
      · omega
      · split
        · omega
        · split <;> omega
    · exact Nat.min_le_right _ _

end Sys2Proof.Machine
end

