-- ==== Sys2Proof/Laws/PerInstr.lean ====
section
/-! SUPPORT. Statements about every instruction as syntax, one lemma per constructor. -/

namespace Sys2Proof.Laws.EncodedInItsFormat

/-- The encoding of an instruction has the length of its format, and the format is `BUS` exactly for the bus operations
(`spec/30_encoding.md` R80, R82). -/
def Statement (i : Instr) : Prop :=
  (encode i).length = (formatOf i).length ∧ (formatOf i = .bus ↔ i.isBus = true)

theorem idle (p : BitVec 5) : Statement (.idle p) := by
  simp [Statement, encode, encodeWord, formatOf, Encoding.bytes, Encoding.format, Format.length, Instr.isBus]

theorem waddr (rd : Bool) (bank : BitVec 1) (data : Byte) : Statement (.waddr rd bank data) := by
  simp [Statement, encode, encodeWord, formatOf, Encoding.bytes, Encoding.format, Format.length, Instr.isBus]

theorem wdata (rd : Bool) (a1 : BitVec 1) (data : Byte) : Statement (.wdata rd a1 data) := by
  simp [Statement, encode, encodeWord, formatOf, Encoding.bytes, Encoding.format, Format.length, Instr.isBus]

theorem rstat : Statement .rstat := by
  simp [Statement, encode, encodeWord, formatOf, Encoding.bytes, Encoding.format, Format.length, Instr.isBus]

theorem rfloat (a : BitVec 2) : Statement (.rfloat a) := by
  simp [Statement, encode, encodeWord, formatOf, Encoding.bytes, Encoding.format, Format.length, Instr.isBus]

theorem test1 (d : Byte) : Statement (.test1 d) := by
  simp [Statement, encode, encodeWord, formatOf, Encoding.bytes, Encoding.format, Format.length, Instr.isBus]

theorem lfo (d : Byte) : Statement (.lfo d) := by
  simp [Statement, encode, encodeWord, formatOf, Encoding.bytes, Encoding.format, Format.length, Instr.isBus]

theorem reserved23 (d : Byte) : Statement (.reserved23 d) := by
  simp [Statement, encode, encodeWord, formatOf, Encoding.bytes, Encoding.format, Format.length, Instr.isBus]

theorem taHi (d : Byte) : Statement (.taHi d) := by
  simp [Statement, encode, encodeWord, formatOf, Encoding.bytes, Encoding.format, Format.length, Instr.isBus]

theorem taLo (d : Byte) : Statement (.taLo d) := by
  simp [Statement, encode, encodeWord, formatOf, Encoding.bytes, Encoding.format, Format.length, Instr.isBus]

theorem tb (d : Byte) : Statement (.tb d) := by
  simp [Statement, encode, encodeWord, formatOf, Encoding.bytes, Encoding.format, Format.length, Instr.isBus]

theorem mode (d : Byte) : Statement (.mode d) := by
  simp [Statement, encode, encodeWord, formatOf, Encoding.bytes, Encoding.format, Format.length, Instr.isBus]

theorem keyon (d : Byte) : Statement (.keyon d) := by
  simp [Statement, encode, encodeWord, formatOf, Encoding.bytes, Encoding.format, Format.length, Instr.isBus]

theorem reserved29 (d : Byte) : Statement (.reserved29 d) := by
  simp [Statement, encode, encodeWord, formatOf, Encoding.bytes, Encoding.format, Format.length, Instr.isBus]

theorem dacdata (d : Byte) : Statement (.dacdata d) := by
  simp [Statement, encode, encodeWord, formatOf, Encoding.bytes, Encoding.format, Format.length, Instr.isBus]

theorem dacen (d : Byte) : Statement (.dacen d) := by
  simp [Statement, encode, encodeWord, formatOf, Encoding.bytes, Encoding.format, Format.length, Instr.isBus]

theorem test2 (d : Byte) : Statement (.test2 d) := by
  simp [Statement, encode, encodeWord, formatOf, Encoding.bytes, Encoding.format, Format.length, Instr.isBus]

theorem dtMul (bank : BitVec 1) (pos : BitVec 2) (cib : BitVec 2) (d : Byte) : Statement (.dtMul bank pos cib d) := by
  simp [Statement, encode, encodeWord, formatOf, Encoding.bytes, Encoding.format, Format.length, Instr.isBus]

theorem tl (bank : BitVec 1) (pos : BitVec 2) (cib : BitVec 2) (d : Byte) : Statement (.tl bank pos cib d) := by
  simp [Statement, encode, encodeWord, formatOf, Encoding.bytes, Encoding.format, Format.length, Instr.isBus]

theorem ksAr (bank : BitVec 1) (pos : BitVec 2) (cib : BitVec 2) (d : Byte) : Statement (.ksAr bank pos cib d) := by
  simp [Statement, encode, encodeWord, formatOf, Encoding.bytes, Encoding.format, Format.length, Instr.isBus]

theorem amDr (bank : BitVec 1) (pos : BitVec 2) (cib : BitVec 2) (d : Byte) : Statement (.amDr bank pos cib d) := by
  simp [Statement, encode, encodeWord, formatOf, Encoding.bytes, Encoding.format, Format.length, Instr.isBus]

theorem sr (bank : BitVec 1) (pos : BitVec 2) (cib : BitVec 2) (d : Byte) : Statement (.sr bank pos cib d) := by
  simp [Statement, encode, encodeWord, formatOf, Encoding.bytes, Encoding.format, Format.length, Instr.isBus]

theorem slRr (bank : BitVec 1) (pos : BitVec 2) (cib : BitVec 2) (d : Byte) : Statement (.slRr bank pos cib d) := by
  simp [Statement, encode, encodeWord, formatOf, Encoding.bytes, Encoding.format, Format.length, Instr.isBus]

theorem ssgeg (bank : BitVec 1) (pos : BitVec 2) (cib : BitVec 2) (d : Byte) : Statement (.ssgeg bank pos cib d) := by
  simp [Statement, encode, encodeWord, formatOf, Encoding.bytes, Encoding.format, Format.length, Instr.isBus]

theorem fnumLo (bank : BitVec 1) (cib : BitVec 2) (d : Byte) : Statement (.fnumLo bank cib d) := by
  simp [Statement, encode, encodeWord, formatOf, Encoding.bytes, Encoding.format, Format.length, Instr.isBus]

theorem fnumHi (bank : BitVec 1) (cib : BitVec 2) (d : Byte) : Statement (.fnumHi bank cib d) := by
  simp [Statement, encode, encodeWord, formatOf, Encoding.bytes, Encoding.format, Format.length, Instr.isBus]

theorem fnum3Lo (cib : BitVec 2) (d : Byte) : Statement (.fnum3Lo cib d) := by
  simp [Statement, encode, encodeWord, formatOf, Encoding.bytes, Encoding.format, Format.length, Instr.isBus]

theorem fnum3Hi (cib : BitVec 2) (d : Byte) : Statement (.fnum3Hi cib d) := by
  simp [Statement, encode, encodeWord, formatOf, Encoding.bytes, Encoding.format, Format.length, Instr.isBus]

theorem fbAlg (bank : BitVec 1) (cib : BitVec 2) (d : Byte) : Statement (.fbAlg bank cib d) := by
  simp [Statement, encode, encodeWord, formatOf, Encoding.bytes, Encoding.format, Format.length, Instr.isBus]

theorem panLfo (bank : BitVec 1) (cib : BitVec 2) (d : Byte) : Statement (.panLfo bank cib d) := by
  simp [Statement, encode, encodeWord, formatOf, Encoding.bytes, Encoding.format, Format.length, Instr.isBus]

theorem reserved (bank : BitVec 1) (addr : Byte) (d : Byte) : Statement (.reserved bank addr d) := by
  simp [Statement, encode, encodeWord, formatOf, Encoding.bytes, Encoding.format, Format.length, Instr.isBus]

end Sys2Proof.Laws.EncodedInItsFormat
end

