-- ==== Sys2Proof/Laws/Step.lean ====
section
/-! SUPPORT. One step in closed form: `step s = .next (stepTo s)`, and `stepTo s` field by field over the state after the bus
operation of the sample (`afterBus`) and the state after phase 1 (`afterTick`). -/

namespace Sys2Proof.Machine

namespace State

/-- The state after the bus operation on the pins (R100 step 2). -/
def afterBus (s : State) : State := execTo s.sampled.busOp s.sampled

/-- Phase 1 with the register write of the tick, before the reset forcing. -/
def written (s : State) : State :=
  match s.pendingWrite with
  | some i => execTo i s.phase1
  | none => s.phase1

/-- The state after phase 1, if it occurs (R100 steps 3, 4). -/
def afterTick (s : State) : State := if s.tickStarts then s.afterBus.written.forceReset else s.afterBus

/-- The state after the step. -/
def stepTo (s : State) : State := s.afterTick.finish

/-! ### `sampled` and `afterBus` -/

@[simp] theorem sampled_cfg (s : State) : s.sampled.cfg = s.cfg := rfl
@[simp] theorem sampled_cur (s : State) : s.sampled.cur = s.cur := rfl
@[simp] theorem sampled_nxt (s : State) : s.sampled.nxt = s.nxt := rfl
@[simp] theorem sampled_pins (s : State) : s.sampled.pins = s.nextPins := rfl
@[simp] theorem sampled_host (s : State) : s.sampled.host = s.host.tail := rfl
@[simp] theorem sampled_out (s : State) : s.sampled.out = s.out := rfl
@[simp] theorem sampled_prescCnt (s : State) : s.sampled.raw.prescCnt = s.raw.prescCnt := rfl
@[simp] theorem sampled_dclkCnt (s : State) : s.sampled.raw.dclkCnt = s.raw.dclkCnt := rfl
@[simp] theorem sampled_dacSr (s : State) : s.sampled.raw.dacSr = s.raw.dacSr := rfl

/-- The bus operation decoded from the pins is one. -/
theorem busOp_isBus (s : State) : s.busOp.isBus = true := decodeBus_isBus _ _

theorem afterBus_eq (s : State) :
    ∃ wa wd b d r a, s.afterBus = (s.sampled.pinSide wa wd b d).driveData r a :=
  execTo_bus (busOp_isBus _) _

theorem afterBus_cfg (s : State) : s.afterBus.cfg = s.cfg := by
  obtain ⟨_, _, _, _, _, _, e⟩ := s.afterBus_eq; rw [e]; rfl
theorem afterBus_cur (s : State) : s.afterBus.cur = s.cur := by
  obtain ⟨_, _, _, _, _, _, e⟩ := s.afterBus_eq; rw [e]; rfl
theorem afterBus_nxt (s : State) : s.afterBus.nxt = s.nxt := by
  obtain ⟨_, _, _, _, _, _, e⟩ := s.afterBus_eq; rw [e]; rfl
theorem afterBus_pins (s : State) : s.afterBus.pins = s.nextPins := by
  obtain ⟨_, _, _, _, _, _, e⟩ := s.afterBus_eq; rw [e]; rfl
theorem afterBus_host (s : State) : s.afterBus.host = s.host.tail := by
  obtain ⟨_, _, _, _, _, _, e⟩ := s.afterBus_eq; rw [e]; rfl

theorem afterBus_raw (s : State) :
    ∃ dl bl p q x y, s.afterBus.raw
      = { s.sampled.raw with dataLatch := dl, bankLatch := bl, waPend := p, wdPend := q, waPrev := x, wdPrev := y } := by
  obtain ⟨_, _, _, _, _, _, e⟩ := s.afterBus_eq
  rw [e, driveData_raw]
  exact pinSide_raw _ _ _ _ _

theorem afterBus_oscHist (s : State) : s.afterBus.raw.oscHist = s.sampled.raw.oscHist := by
  obtain ⟨_, _, _, _, _, _, e⟩ := s.afterBus_raw; rw [e]
theorem afterBus_prescCnt (s : State) : s.afterBus.raw.prescCnt = s.raw.prescCnt := by
  obtain ⟨_, _, _, _, _, _, e⟩ := s.afterBus_raw; rw [e]; rfl
theorem afterBus_dclkCnt (s : State) : s.afterBus.raw.dclkCnt = s.raw.dclkCnt := by
  obtain ⟨_, _, _, _, _, _, e⟩ := s.afterBus_raw; rw [e]; rfl
theorem afterBus_dacSr (s : State) : s.afterBus.raw.dacSr = s.raw.dacSr := by
  obtain ⟨_, _, _, _, _, _, e⟩ := s.afterBus_raw; rw [e]; rfl
theorem afterBus_so (s : State) : s.afterBus.raw.so = s.raw.so := by
  obtain ⟨_, _, _, _, _, _, e⟩ := s.afterBus_raw; rw [e]; rfl
theorem afterBus_wc (s : State) : s.afterBus.raw.wc = s.raw.wc := by
  obtain ⟨_, _, _, _, _, _, e⟩ := s.afterBus_raw; rw [e]; rfl
theorem afterBus_lrc (s : State) : s.afterBus.raw.lrc = s.raw.lrc := by
  obtain ⟨_, _, _, _, _, _, e⟩ := s.afterBus_raw; rw [e]; rfl
theorem afterBus_bck (s : State) : s.afterBus.raw.bck = s.raw.bck := by
  obtain ⟨_, _, _, _, _, _, e⟩ := s.afterBus_raw; rw [e]; rfl

/-- The events of a sample are the same before and after its bus operation. -/
theorem afterBus_phase1Event (s : State) : s.afterBus.phase1Event = s.tickStarts := by
  simp only [phase1Event, rise, tickStarts, afterBus_oscHist, afterBus_prescCnt, sampled_prescCnt]

/-! ### `written` -/

theorem pendingWrite_isBus {s : State} {i : Instr} (h : s.pendingWrite = some i) : i.isBus = false := by
  unfold pendingWrite at h
  repeat' split at h
  all_goals first
    | (cases h; exact decodeReg_isBus _ _)
    | cases h

theorem written_eq (s : State) :
    ∃ g sl ch, s.written = { s.phase1 with nxt := { phase1Regs s with glob := g, slot := sl, chan := ch } } := by
  unfold written
  split
  · next i h => exact execTo_write (pendingWrite_isBus h) _
  · exact ⟨_, _, _, rfl⟩

theorem written_cfg (s : State) : s.written.cfg = s.cfg := by obtain ⟨_, _, _, e⟩ := s.written_eq; rw [e]; rfl
theorem written_raw (s : State) : s.written.raw = s.phase1.raw := by obtain ⟨_, _, _, e⟩ := s.written_eq; rw [e]
theorem written_cur (s : State) : s.written.cur = s.cur := by obtain ⟨_, _, _, e⟩ := s.written_eq; rw [e]; rfl
theorem written_pins (s : State) : s.written.pins = s.pins := by obtain ⟨_, _, _, e⟩ := s.written_eq; rw [e]; rfl
theorem written_host (s : State) : s.written.host = s.host := by obtain ⟨_, _, _, e⟩ := s.written_eq; rw [e]; rfl
theorem written_rst (s : State) : s.written.nxt.rst = (phase1Regs s).rst := by
  obtain ⟨_, _, _, e⟩ := s.written_eq; rw [e]
theorem written_scan (s : State) : s.written.nxt.scan = (phase1Regs s).scan := by
  obtain ⟨_, _, _, e⟩ := s.written_eq; rw [e]
theorem written_bus (s : State) : s.written.nxt.bus = (phase1Regs s).bus := by
  obtain ⟨_, _, _, e⟩ := s.written_eq; rw [e]
theorem written_key (s : State) : s.written.nxt.key = (phase1Regs s).key := by
  obtain ⟨_, _, _, e⟩ := s.written_eq; rw [e]
theorem written_eg (s : State) : s.written.nxt.eg = (phase1Regs s).eg := by
  obtain ⟨_, _, _, e⟩ := s.written_eq; rw [e]
theorem written_pg (s : State) : s.written.nxt.pg = (phase1Regs s).pg := by
  obtain ⟨_, _, _, e⟩ := s.written_eq; rw [e]
theorem written_lfo (s : State) : s.written.nxt.lfo = (phase1Regs s).lfo := by
  obtain ⟨_, _, _, e⟩ := s.written_eq; rw [e]
theorem written_op (s : State) : s.written.nxt.op = (phase1Regs s).op := by
  obtain ⟨_, _, _, e⟩ := s.written_eq; rw [e]
theorem written_acc (s : State) : s.written.nxt.acc = (phase1Regs s).acc := by
  obtain ⟨_, _, _, e⟩ := s.written_eq; rw [e]
theorem written_tmr (s : State) : s.written.nxt.tmr = (phase1Regs s).tmr := by
  obtain ⟨_, _, _, e⟩ := s.written_eq; rw [e]

/-! ### `finish` -/

@[simp] theorem finish_cfg (s : State) : s.finish.cfg = s.cfg := by unfold finish; split <;> simp
@[simp] theorem finish_nxt (s : State) : s.finish.nxt = s.nxt := by unfold finish; split <;> simp
@[simp] theorem finish_pins (s : State) : s.finish.pins = s.pins := by unfold finish; split <;> simp
@[simp] theorem finish_host (s : State) : s.finish.host = s.host := by unfold finish; split <;> simp
theorem finish_cur (s : State) : s.finish.cur = if s.phase2Event then s.nxt else s.cur := by
  unfold finish; split <;> simp
@[simp] theorem finish_oscHist (s : State) : s.finish.raw.oscHist = s.raw.oscHist := by unfold finish; split <;> simp
@[simp] theorem finish_dataLatch (s : State) : s.finish.raw.dataLatch = s.raw.dataLatch := by
  unfold finish; split <;> simp
@[simp] theorem finish_bankLatch (s : State) : s.finish.raw.bankLatch = s.raw.bankLatch := by
  unfold finish; split <;> simp
@[simp] theorem finish_waPrev (s : State) : s.finish.raw.waPrev = s.raw.waPrev := by unfold finish; split <;> simp
@[simp] theorem finish_wdPrev (s : State) : s.finish.raw.wdPrev = s.raw.wdPrev := by unfold finish; split <;> simp
@[simp] theorem finish_waPend (s : State) : s.finish.raw.waPend = s.raw.waPend := by unfold finish; split <;> simp
@[simp] theorem finish_wdPend (s : State) : s.finish.raw.wdPend = s.raw.wdPend := by unfold finish; split <;> simp
theorem finish_prescCnt (s : State) :
    s.finish.raw.prescCnt = if s.rise then (s.raw.prescCnt + 1) % s.cfg.prescPeriod else s.raw.prescCnt := by
  unfold finish; split <;> simp [advanceClocks_prescCnt, rise]
theorem finish_dclkCnt (s : State) :
    s.finish.raw.dclkCnt = if s.rise && s.hasDclk then (s.raw.dclkCnt + 1) % s.cfg.dclkPeriod else s.raw.dclkCnt := by
  unfold finish; split <;> simp [advanceClocks_dclkCnt, rise, hasDclk]

/-- The serializer is idle after a sample in reset: one before or after whose commit `ic.cur` is 1 (R362, R323). -/
theorem finish_serialIdle {s : State} (h : s.cur.rst.ic = true ∨ s.finish.cur.rst.ic = true) : s.finish.SerialIdle := by
  have hi : (s.cur.rst.ic || (if s.phase2Event then s.commit else s).cur.rst.ic) = true := by
    rw [finish_cur] at h
    split <;> simp_all
  have hc : ∀ u : State, u.SerialIdle → u.advanceClocks.drive.SerialIdle := by
    intro u hu
    unfold advanceClocks
    split <;> exact hu
  unfold finish
  apply hc
  rw [hi]
  exact ⟨rfl, rfl, rfl, rfl, rfl⟩

/-! ### `stepTo` -/

/-- A step always answers a next state, `stepTo s`. -/
theorem step_eq (s : State) : step s = .next s.stepTo := by
  have h : phase1Step s.afterBus = .next s.afterBus.written.forceReset := by
    unfold phase1Step written
    cases s.afterBus.pendingWrite with
    | none => rfl
    | some i => simp only [exec_eq, andThen]
  have e : step s = andThen (exec s.sampled.busOp s.sampled) fun s1 =>
      andThen (if s1.phase1Event then phase1Step s1 else .next s1) fun s2 => .next s2.finish := rfl
  rw [e, exec_eq]
  show andThen (if s.afterBus.phase1Event then phase1Step s.afterBus else .next s.afterBus) _ = _
  rw [afterBus_phase1Event, h, stepTo, afterTick]
  split <;> rfl

theorem afterTick_cfg (s : State) : s.afterTick.cfg = s.cfg := by
  unfold afterTick; split <;> simp [written_cfg, afterBus_cfg]
theorem afterTick_cur (s : State) : s.afterTick.cur = s.cur := by
  unfold afterTick; split <;> simp [written_cur, afterBus_cur]
theorem afterTick_pins (s : State) : s.afterTick.pins = s.nextPins := by
  unfold afterTick; split <;> simp [written_pins, afterBus_pins]
theorem afterTick_host (s : State) : s.afterTick.host = s.host.tail := by
  unfold afterTick; split <;> simp [written_host, afterBus_host]
theorem afterTick_oscHist (s : State) : s.afterTick.raw.oscHist = s.sampled.raw.oscHist := by
  unfold afterTick; split <;> simp [written_raw, afterBus_oscHist]
theorem afterTick_prescCnt (s : State) : s.afterTick.raw.prescCnt = s.raw.prescCnt := by
  unfold afterTick; split <;> simp [written_raw, afterBus_prescCnt]
theorem afterTick_dclkCnt (s : State) : s.afterTick.raw.dclkCnt = s.raw.dclkCnt := by
  unfold afterTick; split <;> simp [written_raw, afterBus_dclkCnt]
theorem afterTick_dacSr (s : State) : s.afterTick.raw.dacSr = s.raw.dacSr := by
  unfold afterTick; split <;> simp [written_raw, afterBus_dacSr]
theorem afterTick_rise (s : State) : s.afterTick.rise = s.rises := by
  simp only [rise, rises, afterTick_oscHist]
theorem afterTick_phase2Event (s : State) : s.afterTick.phase2Event = s.tickEnds := by
  simp only [phase2Event, rise, tickEnds, afterTick_oscHist, afterTick_prescCnt, afterTick_cfg, sampled_prescCnt,
    sampled_cfg]

theorem stepTo_cfg (s : State) : s.stepTo.cfg = s.cfg := by rw [stepTo, finish_cfg, afterTick_cfg]
theorem stepTo_pins (s : State) : s.stepTo.pins = s.nextPins := by rw [stepTo, finish_pins, afterTick_pins]
theorem stepTo_host (s : State) : s.stepTo.host = s.host.tail := by rw [stepTo, finish_host, afterTick_host]
theorem stepTo_nxt (s : State) : s.stepTo.nxt = s.afterTick.nxt := by rw [stepTo, finish_nxt]
theorem stepTo_cur (s : State) : s.stepTo.cur = if s.tickEnds then s.afterTick.nxt else s.cur := by
  rw [stepTo, finish_cur, afterTick_phase2Event, afterTick_cur]
theorem stepTo_oscHist (s : State) : s.stepTo.raw.oscHist = s.sampled.raw.oscHist := by
  rw [stepTo, finish_oscHist, afterTick_oscHist]
theorem stepTo_prescCnt (s : State) :
    s.stepTo.raw.prescCnt = if s.rises then (s.raw.prescCnt + 1) % s.cfg.prescPeriod else s.raw.prescCnt := by
  rw [stepTo, finish_prescCnt, afterTick_rise, afterTick_prescCnt, afterTick_cfg]
theorem stepTo_dclkCnt (s : State) :
    s.stepTo.raw.dclkCnt
      = if s.rises && s.hasDclk then (s.raw.dclkCnt + 1) % s.cfg.dclkPeriod else s.raw.dclkCnt := by
  rw [stepTo, finish_dclkCnt, afterTick_rise, afterTick_dclkCnt, afterTick_cfg, hasDclk, afterTick_cfg, hasDclk]

/-- A step in reset, by `ic.cur` before it or after it, leaves the serializer idle. -/
theorem stepTo_serialIdle {s : State} (h : s.cur.rst.ic = true ∨ s.stepTo.cur.rst.ic = true) : s.stepTo.SerialIdle :=
  finish_serialIdle (by rw [afterTick_cur]; exact h)

/-! ### The `next` halves after a step -/

theorem afterTick_nxt_of_not {s : State} (h : s.tickStarts = false) : s.afterTick.nxt = s.nxt := by
  rw [afterTick, if_neg (by simp [h]), afterBus_nxt]

theorem afterTick_nxt_of_tick {s : State} (h : s.tickStarts = true) :
    s.afterTick.nxt = s.afterBus.written.forceReset.nxt := by
  rw [afterTick, if_pos h]

/-- A tick with `ic.cur = 1` leaves every `next` at its reset value but the reset pairs and the counters (R360). -/
theorem forceReset_nxt_of_ic {s : State} (h : s.cur.rst.ic = true) :
    s.forceReset.nxt = { Regs.reset with rst := s.nxt.rst, scan := s.nxt.scan } := by
  rw [forceReset, if_pos h]

theorem forceReset_of_not {s : State} (h : s.cur.rst.ic = false) : s.forceReset = s := by
  rw [forceReset, if_neg (by simp [h])]

/-- A tick with `ic.cur = 0` leaves the `next` halves of phase 1 and of its register write. -/
theorem afterTick_nxt_of_run {s : State} (h : s.tickStarts = true) (hi : s.cur.rst.ic = false) :
    s.afterTick.nxt = s.afterBus.written.nxt := by
  rw [afterTick_nxt_of_tick h, forceReset_of_not]
  rw [written_cur, afterBus_cur, hi]

/-- Phase 1 reads the configuration, the `cur` halves and the raw latches of the sample. -/
theorem phase1Regs_afterBus (s : State) :
    phase1Regs s.afterBus =
      { rst := rstNext s.cfg s.nextPins.reset s.cur
        scan := scanNext s.cfg (enables s.cfg s.cur) s.cur
        bus := busNext s.afterBus
        glob := globNext s.cur
        slot := s.cur.slot
        chan := s.cur.chan
        key := keyNext (enables s.cfg s.cur) s.cur
        eg := egNext s.cfg (enables s.cfg s.cur) s.cur
        pg := pgNext s.cfg (enables s.cfg s.cur) s.cur
        lfo := lfoNext s.cfg (enables s.cfg s.cur) s.cur
        op := opNext s.cfg (enables s.cfg s.cur) s.cur
        acc := accNext s.cfg (enables s.cfg s.cur) s.cur
        tmr := tmrNext (enables s.cfg s.cur) s.cur } := by
  simp only [phase1Regs, afterBus_cfg, afterBus_cur, afterBus_pins]

theorem stepTo_nxt_rst {s : State} (h : s.tickStarts = true) : s.stepTo.nxt.rst = rstNext s.cfg s.nextPins.reset s.cur := by
  rw [stepTo_nxt, afterTick_nxt_of_tick h, forceReset_rst, written_rst, phase1Regs_afterBus]
theorem stepTo_nxt_scan {s : State} (h : s.tickStarts = true) :
    s.stepTo.nxt.scan = scanNext s.cfg (enables s.cfg s.cur) s.cur := by
  rw [stepTo_nxt, afterTick_nxt_of_tick h, forceReset_scan, written_scan, phase1Regs_afterBus]
theorem stepTo_nxt_bus {s : State} (h : s.tickStarts = true) (hi : s.cur.rst.ic = false) :
    s.stepTo.nxt.bus = busNext s.afterBus := by
  rw [stepTo_nxt, afterTick_nxt_of_run h hi, written_bus, phase1Regs_afterBus]
theorem stepTo_nxt_key {s : State} (h : s.tickStarts = true) (hi : s.cur.rst.ic = false) :
    s.stepTo.nxt.key = keyNext (enables s.cfg s.cur) s.cur := by
  rw [stepTo_nxt, afterTick_nxt_of_run h hi, written_key, phase1Regs_afterBus]
theorem stepTo_nxt_eg {s : State} (h : s.tickStarts = true) (hi : s.cur.rst.ic = false) :
    s.stepTo.nxt.eg = egNext s.cfg (enables s.cfg s.cur) s.cur := by
  rw [stepTo_nxt, afterTick_nxt_of_run h hi, written_eg, phase1Regs_afterBus]
theorem stepTo_nxt_pg {s : State} (h : s.tickStarts = true) (hi : s.cur.rst.ic = false) :
    s.stepTo.nxt.pg = pgNext s.cfg (enables s.cfg s.cur) s.cur := by
  rw [stepTo_nxt, afterTick_nxt_of_run h hi, written_pg, phase1Regs_afterBus]
theorem stepTo_nxt_lfo {s : State} (h : s.tickStarts = true) (hi : s.cur.rst.ic = false) :
    s.stepTo.nxt.lfo = lfoNext s.cfg (enables s.cfg s.cur) s.cur := by
  rw [stepTo_nxt, afterTick_nxt_of_run h hi, written_lfo, phase1Regs_afterBus]
theorem stepTo_nxt_op {s : State} (h : s.tickStarts = true) (hi : s.cur.rst.ic = false) :
    s.stepTo.nxt.op = opNext s.cfg (enables s.cfg s.cur) s.cur := by
  rw [stepTo_nxt, afterTick_nxt_of_run h hi, written_op, phase1Regs_afterBus]
theorem stepTo_nxt_acc {s : State} (h : s.tickStarts = true) (hi : s.cur.rst.ic = false) :
    s.stepTo.nxt.acc = accNext s.cfg (enables s.cfg s.cur) s.cur := by
  rw [stepTo_nxt, afterTick_nxt_of_run h hi, written_acc, phase1Regs_afterBus]
theorem stepTo_nxt_tmr {s : State} (h : s.tickStarts = true) (hi : s.cur.rst.ic = false) :
    s.stepTo.nxt.tmr = tmrNext (enables s.cfg s.cur) s.cur := by
  rw [stepTo_nxt, afterTick_nxt_of_run h hi, written_tmr, phase1Regs_afterBus]

end State

end Sys2Proof.Machine
end

