-- ==== Sys2Proof/Tests/Slice0.lean ====
section
/-! SUPPORT. Tests: the well-formedness checks refuse an ill-formed term each; words written out from the tables decode; small
steps give the values of the spec's examples; every statement with hypotheses has a witness that meets them. Expected values
come from the examples of `spec/`, or are worked out by hand from the rule named. -/

set_option Elab.async false

namespace Sys2Proof.Tests

open Sys2Proof Sys2Proof.Machine

/-! ### Well-formedness: each check refuses an ill-formed term -/

theorem test_wf_idle : (Instr.idle 0b11000).wf = false ∧ (Instr.idle 0b10101).wf = false ∧ (Instr.idle 0b10011).wf = true
    ∧ (Instr.idle 0b01111).wf = true := by decide
theorem test_wf_rfloat : (Instr.rfloat 0).wf = false ∧ (Instr.rfloat 1).wf = true := by decide
theorem test_wf_slot_gap : (Instr.dtMul 0 1 3 0).wf = false ∧ (Instr.tl 0 1 3 0).wf = false ∧ (Instr.ksAr 1 0 3 0).wf = false
    ∧ (Instr.amDr 1 2 3 0).wf = false ∧ (Instr.sr 0 3 3 0).wf = false ∧ (Instr.slRr 0 0 3 0).wf = false
    ∧ (Instr.ssgeg 1 1 3 0).wf = false ∧ (Instr.tl 1 3 2 0xFF).wf = true := by decide
theorem test_wf_chan_gap : (Instr.fnumLo 0 3 0).wf = false ∧ (Instr.fnumHi 1 3 0).wf = false ∧ (Instr.fnum3Lo 3 0).wf = false
    ∧ (Instr.fnum3Hi 3 0).wf = false ∧ (Instr.fbAlg 0 3 0).wf = false ∧ (Instr.panLfo 1 3 0).wf = false
    ∧ (Instr.panLfo 1 2 0).wf = true := by decide
theorem test_wf_reserved : (Instr.reserved 0 0x28 0).wf = false ∧ (Instr.reserved 0 0x9E 0).wf = false
    ∧ (Instr.reserved 1 0xB6 0).wf = false ∧ (Instr.reserved 0 0x23 0).wf = false ∧ (Instr.reserved 1 0x28 0).wf = true
    ∧ (Instr.reserved 1 0xAE 0).wf = true := by decide

theorem test_wf_config : Config.mono.wf = true ∧ Config.stereo.wf = true := by decide +kernel
theorem test_wf_config_periods : ({ Config.mono with prescMono := 1 }).wf = false
    ∧ ({ Config.mono with prescStereo := 1 }).wf = false ∧ ({ Config.mono with dclkPeriod := 1 }).wf = false
    ∧ ({ Config.mono with resetDebounce := 1 }).wf = false ∧ ({ Config.mono with egPrescale := 0 }).wf = false
    ∧ ({ Config.mono with egPrescale := 5 }).wf = false ∧ ({ Config.mono with egPrescale := 4 }).wf = true
    ∧ ({ Config.mono with dacWordBits := 0 }).wf = false := by decide +kernel
/-- A table of 31 records; a table without `restart`; two tables in one order of the three clocks. -/
theorem test_wf_config_fsm : ({ Config.mono with fsmMono := Config.tabulate Config.monoRec 31 }).wf = false
    ∧ ({ Config.mono with fsmMono := Config.tabulate (fun q => { Config.monoRec q with restart := false }) 32 }).wf = false
    ∧ ({ Config.mono with fsmMono := Config.tabulate (fun q => { Config.monoRec q with egClock := false }) 32 }).wf = false
    ∧ ({ Config.mono with fsmStereo := Config.tabulate Config.monoRec 32 }).wf = false := by decide +kernel
theorem test_wf_config_tables : ({ Config.mono with lfoPeriod := [1] }).wf = false
    ∧ ({ Config.mono with fnNote := List.replicate 16 4 }).wf = false ∧ ({ Config.mono with pmSh1 := [] }).wf = false
    ∧ ({ Config.mono with pmSh2 := List.replicate 8 [8] }).wf = false ∧ ({ Config.mono with detuneBase := [] }).wf = false
    ∧ ({ Config.mono with egStepHi := List.replicate 4 [0, 0, 0, 2] }).wf = false
    ∧ ({ Config.mono with egAmShift := [0, 0, 0, 8] }).wf = false ∧ ({ Config.mono with logsin := [] }).wf = false
    ∧ ({ Config.mono with exprom := List.replicate 256 1024 }).wf = false := by decide +kernel
/-- OP4 as a modulation source of OP2. -/
theorem test_wf_config_routing : ({ Config.mono with
    routing := List.replicate 8 { srcOp2 := [.op4], srcOp3 := [], srcOp4 := [], taps := [] } }).wf = false := by decide +kernel

/-! ### Decoding: words written out from `spec/30_encoding.md` R81, R83, R86 to R89 -/

theorem test_decode_bus : decodeBus 0b00111 0x12 = .idle 0b00111 ∧ decodeBus 0b10010 0 = .idle 0b10010
    ∧ decodeBus 0b10100 0x28 = .waddr false 0 0x28 ∧ decodeBus 0b10110 0x28 = .waddr false 1 0x28
    ∧ decodeBus 0b10101 0xF0 = .wdata false 0 0xF0 ∧ decodeBus 0b10111 0xF0 = .wdata false 1 0xF0
    ∧ decodeBus 0b11000 0 = .rstat ∧ decodeBus 0b11001 0 = .rfloat 1 ∧ decodeBus 0b11010 0 = .rfloat 2
    ∧ decodeBus 0b11011 0 = .rfloat 3 ∧ decodeBus 0b11100 0x30 = .waddr true 0 0x30
    ∧ decodeBus 0b11101 0x30 = .wdata true 0 0x30 := by decide
theorem test_decode_global : decodeReg 0b000100001 1 = .test1 1 ∧ decodeReg 0b000100010 2 = .lfo 2
    ∧ decodeReg 0b000100011 3 = .reserved23 3 ∧ decodeReg 0b000100100 4 = .taHi 4 ∧ decodeReg 0b000100101 5 = .taLo 5
    ∧ decodeReg 0b000100110 6 = .tb 6 ∧ decodeReg 0b000100111 7 = .mode 7 ∧ decodeReg 0b000101000 8 = .keyon 8
    ∧ decodeReg 0b000101001 9 = .reserved29 9 ∧ decodeReg 0b000101010 10 = .dacdata 10
    ∧ decodeReg 0b000101011 11 = .dacen 11 ∧ decodeReg 0b000101100 12 = .test2 12 := by decide
/-- The address byte is `grp pp cc`; the bank is bit 8. -/
theorem test_decode_slot : decodeReg 0b0_0011_00_00 0x71 = .dtMul 0 0 0 0x71 ∧ decodeReg 0b1_0100_10_01 0x7F = .tl 1 2 1 0x7F
    ∧ decodeReg 0b0_0101_01_10 0x1F = .ksAr 0 1 2 0x1F ∧ decodeReg 0b1_0110_11_00 0x8A = .amDr 1 3 0 0x8A
    ∧ decodeReg 0b0_0111_11_10 5 = .sr 0 3 2 5 ∧ decodeReg 0b1_1000_01_01 0xF7 = .slRr 1 1 1 0xF7
    ∧ decodeReg 0b1_1001_11_10 0x0A = .ssgeg 1 3 2 0x0A := by decide
theorem test_decode_chan : decodeReg 0b0_1010_00_01 0x69 = .fnumLo 0 1 0x69 ∧ decodeReg 0b1_1010_01_10 0x22 = .fnumHi 1 2 0x22
    ∧ decodeReg 0b0_1010_10_01 0 = .fnum3Lo 1 0 ∧ decodeReg 0b0_1010_11_10 0x14 = .fnum3Hi 2 0x14
    ∧ decodeReg 0b0_1011_00_00 0x3C = .fbAlg 0 0 0x3C ∧ decodeReg 0b1_1011_01_10 0xC0 = .panLfo 1 2 0xC0 := by decide
theorem test_decode_reserved : decodeReg 0b1_0010_10_00 8 = .reserved 1 0x28 8 ∧ decodeReg 0b0_0011_00_11 8 = .reserved 0 0x33 8
    ∧ decodeReg 0b1_1010_10_00 8 = .reserved 1 0xA8 8 ∧ decodeReg 0b0_1011_01_11 8 = .reserved 0 0xB7 8
    ∧ decodeReg 0b0_0010_00_00 8 = .reserved 0 0x20 8 ∧ decodeReg 0b1_1111_11_11 8 = .reserved 1 0xFF 8 := by decide
/-- Bytes that are no word: a wrong length, a bit above the word. -/
theorem test_decode_bytes : decode .bus [0x14] = .error .length ∧ decode .reg [0x28, 0] = .error .length
    ∧ decode .bus [0x34, 0] = .error .padding ∧ decode .reg [0x28, 2, 0] = .error .padding := by decide
theorem test_encode_bytes : encode (.tl 1 2 1 0x7F) = [0x49, 1, 0x7F] ∧ encode (.waddr false 1 0x30) = [0x16, 0x30] := by decide
theorem test_table_word : decodeTableWord 5 0b10100 = some (.waddr false 0 0)
    ∧ decodeTableWord 9 0b000101000 = some (.keyon 0) ∧ decodeTableWord 9 0b100101000 = some (.reserved 1 0x28 0)
    ∧ decodeTableWord 5 0x114 = some (.waddr false 0 1) := by decide

/-! ### Small states -/

/-- A state of configuration `c` about to start a tick at scan position `q`, its pairs the reset pairs changed by `f` in both
halves, the bus idle. -/
def tick (c : Config) (q : Nat) (f : Regs → Regs) : State :=
  let r := f
    { Regs.reset with
      scan :=
        { regCnt1 := BitVec.ofNat 2 q, regCnt2 := BitVec.ofNat 3 (q / 4), fsmCnt1 := BitVec.ofNat 2 q
          fsmCnt2 := BitVec.ofNat 3 (q / 4) } }
  { State.created c with cur := r, nxt := r }

/-- A write or read of pin address `a` with byte `d`, on a rising clock. -/
def strobe (rd wr : Bool) (a : BitVec 2) (d : Byte) : Pins :=
  { Pins.idle true with cs := true, rd := rd, wr := wr, address := a, data := d }

/-- The `next` halves after one step. -/
def after {α : Type} (s : State) (f : Regs → α) : Option α :=
  match step s with
  | .next t => some (f t.nxt)
  | .fault _ => none
  | .refused _ => none

/-- The `next` halves after the step that runs the register write of word `w` with byte `d` as its first instruction. -/
def ran {α : Type} (w d : Nat) (f : Regs → α) : Option α := after (State.reset.withFetchWord 9 (w + d * 65536)) f

/-- The raw latches and outputs after the step that runs the bus operation of word `w` with byte `d`. -/
def bused (w d : Nat) : Option (Raw × BitVec 8 × Bool) :=
  match step (State.reset.withFetchWord 5 (w + d * 256)) with
  | .next t => some (t.raw, t.out.dataOut, t.out.dataOutEn)
  | .fault _ => none
  | .refused _ => none

/-! ### Bus operations (`41_bus_front_end.md`: the examples of R120 to R133) -/

theorem test_idle : bused 0b00100 0x55 = some (Raw.reset, 0, false) := by decide +kernel
theorem test_waddr : bused 0b10110 0x30 =
    some ({ Raw.reset with dataLatch := 0x30, bankLatch := 1, waPend := true, waPrev := true }, 0x30, false) := by decide +kernel
theorem test_wdata : bused 0b10111 0x71 =
    some ({ Raw.reset with dataLatch := 0x71, wdPend := true, wdPrev := true }, 0x71, false) := by decide +kernel
theorem test_rstat : bused 0b11000 0 = some (Raw.reset, 0, true) := by decide +kernel
/-- R129: timer A has overflowed, nothing is busy. -/
theorem test_rstat_flag : ({ Regs.reset with tmr := { Regs.reset.tmr with taFlag := true } }).status = 0x01 := by decide
/-- R129, R323, `95` V2.1: during reset the byte is 0x00 and the sample 0, in the first tick too, where the flag, the busy count
and `mono_out` still stand. -/
theorem test_reset_outputs : (match step { tick Config.mono 5 fun r =>
      { r with
        rst := { ic := true, rstSr := 1 }, tmr := { r.tmr with taFlag := true }
        bus := { r.bus with busyCnt := 9 }, acc := { r.acc with monoOut := 7 } } with
      host := [strobe true false 0 0] } with
    | .next t => some (t.cur.tmr.taFlag, t.cur.acc.monoOut, t.out) | .fault _ => none | .refused _ => none)
    = some (true, 7, { dataOut := 0, dataOutEn := true, audio := .mono 0 }) := by decide +kernel
/-- R133: the last byte written. -/
theorem test_rfloat : (match exec (.rfloat 1) { State.reset with raw := { Raw.reset with dataLatch := 0x71 } } with
    | .next t => some t.out.dataOut | .fault _ => none | .refused _ => none) = some 0x71 := by decide
/-- A strobe held for a second sample is not a new write (R122). -/
theorem test_strobe_edge : (match exec (.wdata false 0 1) { State.reset with raw := { Raw.reset with wdPrev := true } } with
    | .next t => some t.raw.wdPend | .fault _ => none | .refused _ => none) = some false := by decide

/-! ### Register writes (the examples of `43_register_writes.md` R162 to R186), each as the first instruction after reset -/

theorem test_test1 : ran 0x21 0xA5 (·.glob.test21) = some 0xA5 := by decide +kernel
theorem test_lfo : ran 0x22 0x0B (fun r => (r.glob.lfoEn, r.glob.lfoFreq)) = some (true, 3) := by decide +kernel
theorem test_ta_hi : ran 0x24 0xFF (·.glob.taReload) = some 0x3FC := by decide +kernel
theorem test_ta_lo : ran 0x25 0xFF (·.glob.taReload) = some 3 := by decide +kernel
theorem test_tb : ran 0x26 0xC8 (·.glob.tbReload) = some 200 := by decide +kernel
theorem test_mode : ran 0x27 0x15 (·.glob) =
    some { Regs.reset.glob with taReset := true, taEnable := true, taLoad := true } := by decide +kernel
theorem test_mode_high : ran 0x27 0xAA (·.glob) =
    some { Regs.reset.glob with ch3Mode := 2, tbReset := true, tbEnable := true, tbLoad := true } := by decide +kernel
theorem test_keyon : ran 0x28 0xF6 (fun r => (r.glob.konOp, r.glob.konCh)) = some (15, 6) := by decide +kernel
theorem test_dacdata : ran 0x2A 0x80 (·.glob.dacData) = some 0x80 := by decide +kernel
theorem test_dacen : ran 0x2B 0x80 (·.glob.dacEn) = some true ∧ ran 0x2B 0x7F (·.glob.dacEn) = some false := by decide +kernel
theorem test_test2 : ran 0x2C 0x08 (·.tDacLsb) = some true := by decide +kernel
theorem test_reserved : ran 0x29 0xFF (·.glob) = some Regs.reset.glob ∧ ran 0x23 0xFF (·.glob) = some Regs.reset.glob
    ∧ ran 0x33 0xFF (·.slot) = some Regs.reset.slot ∧ ran 0x128 0xFF (·.glob) = some Regs.reset.glob := by decide +kernel
theorem test_dt_mul : ran 0x30 0x71 (fun r => (r.slot.dt[0], r.slot.mul[0], r.slot.mul[1])) = some (7, 1, 0) := by decide +kernel
theorem test_tl : ran 0x4C 0xFF (fun r => (r.slot.tl[18], r.slot.tl[17], r.slot.tl[19])) = some (127, 0, 0) := by decide +kernel
theorem test_ks_ar : ran 0x50 0x9F (fun r => (r.slot.ks[0], r.slot.ar[0])) = some (2, 31) := by decide +kernel
theorem test_am_dr : ran 0x60 0x8A (fun r => (r.slot.am[0], r.slot.dr[0])) = some (true, 10) := by decide +kernel
/-- Bank 1, position 1, channel 2 of the bank: slot `6 * 1 + 5`. -/
theorem test_sr : ran 0x176 0xE5 (fun r => (r.slot.sr[11], r.slot.sr[5])) = some (5, 0) := by decide +kernel
theorem test_sl_rr : ran 0x80 0xF7 (fun r => (r.slot.sl[0], r.slot.rr[0])) = some (15, 7) := by decide +kernel
theorem test_ssgeg : ran 0x90 0xFA (·.slot.ssg[0]) = some 0b1010 := by decide +kernel
theorem test_fnum_hi : ran 0xA4 0xE2 (·.chan.fhiLatch) = some 0x22 := by decide +kernel
/-- R181: after the holding latch has 0x22. -/
theorem test_fnum_lo : (match exec (.fnumLo 0 0 0x69)
      (tick Config.mono 0 fun r => { r with chan := { r.chan with fhiLatch := 0x22 } }) with
    | .next t => some (t.nxt.chan.block[0], t.nxt.chan.fnum[0]) | .fault _ => none | .refused _ => none)
    = some (4, 0x269) := by decide +kernel
theorem test_fnum3_hi : ran 0xAC 0x14 (·.chan.fhi3Latch) = some 0x14 := by decide +kernel
/-- R183: after the holding latch has 0x14. -/
theorem test_fnum3_lo : (match exec (.fnum3Lo 1 0)
      (tick Config.mono 0 fun r => { r with chan := { r.chan with fhi3Latch := 0x14 } }) with
    | .next t => some (t.nxt.chan.block3[1], t.nxt.chan.fnum3[1], t.nxt.chan.fnum3[0]) | .fault _ => none | .refused _ => none)
    = some (2, 0x400, 0) := by decide +kernel
theorem test_fb_alg : ran 0xB0 0x3C (fun r => (r.chan.fb[0], r.chan.alg[0])) = some (7, 4) := by decide +kernel
theorem test_pan_lfo : ran 0x1B6 0xC0 (fun r => (r.chan.panL[5], r.chan.panR[5], r.chan.panL[2])) = some (true, true, false) := by
  decide +kernel
theorem test_pan_lfo_low : ran 0xB4 0x3F (fun r => (r.chan.panL[0], r.chan.ams[0], r.chan.pms[0])) = some (false, 3, 7) := by
  decide +kernel

/-! ### Pipelines -/

/-- `46_phase_generator.md`, the table of section 6. -/
theorem test_increments : phaseInc Config.mono 1000 4 0 1 0 0 = 8000 ∧ phaseInc Config.mono 1000 4 0 0 0 0 = 4000
    ∧ phaseInc Config.mono 1000 4 3 1 0 0 = 8008 ∧ phaseInc Config.mono 1000 4 7 1 0 0 = 7992
    ∧ phaseInc Config.mono 2047 7 0 15 0 0 = 916544 ∧ phaseInc Config.mono 0 0 5 1 0 0 = 0
    ∧ phaseInc Config.mono 0 7 5 1 0 0 = 131064 := by decide +kernel
/-- The same increments at a visit of slot 0, from its own fields: frequency 1000, block 4, detune 3 and 7, multiplier 1; with
vibrato of sensitivity 7 at LFO output 28. -/
theorem test_visit_increment :
    let inc (dt : BitVec 3) (pms : BitVec 3) (o : BitVec 7) := after (tick Config.mono 0 fun r =>
      { r with
        chan :=
          { r.chan with
            fnum := setAt r.chan.fnum 0 1000, block := setAt r.chan.block 0 4, pms := setAt r.chan.pms 0 pms }
        slot := { r.slot with dt := setAt r.slot.dt 0 dt, mul := setAt r.slot.mul 0 1 }
        lfo := { r.lfo with out := o } }) (·.pg.inc[0])
    inc 3 0 0 = some 8008 ∧ inc 7 0 0 = some 7992 ∧ inc 0 7 28 = some 8372 := by decide +kernel
/-- R208, rows 2 and 4 of the default table. -/
theorem test_routing : sources Config.mono 2 .op4 = [.op1, .op3] ∧ sources Config.mono 2 .op3 = [.op2]
    ∧ sources Config.mono 2 .op2 = [] ∧ sources Config.mono 4 .op2 = [.op1] ∧ isTap Config.mono 4 .op2 = true
    ∧ isTap Config.mono 4 .op4 = true ∧ isTap Config.mono 4 .op1 = false ∧ isTap Config.mono 4 .op3 = false := by decide
/-- R36, R105: the accumulator width and the tick period of each variant. -/
theorem test_variant : Config.mono.accBits = 9 ∧ Config.stereo.accBits = 14
    ∧ ({ Config.mono with prescMono := 5, prescStereo := 8 }).prescPeriod = 5
    ∧ ({ Config.stereo with prescMono := 5, prescStereo := 8 }).prescPeriod = 8 := by decide
/-- The vibrato examples of the same section. -/
theorem test_vibrato : phaseInc Config.mono 1000 4 0 1 (lfoPm 28) 7 = 8372 ∧ phaseInc Config.mono 1000 4 0 1 (lfoPm 92) 7 = 7628
    ∧ phaseInc Config.mono 653 4 1 2 (lfoPm 40) 3 = 10492 := by decide +kernel
theorem test_key_code : keyCode Config.mono 1000 4 = 17 ∧ keyCode Config.mono 2047 7 = 31 ∧ keyCode Config.mono 0 7 = 28 := by
  decide +kernel
/-- R255: locks of the timer values 0, 1, 6, 2048. -/
theorem test_locks : egShiftLock 0 = 0 ∧ egShiftLock 1 = 1 ∧ egShiftLock 6 = 2 ∧ egShiftLock 2048 = 12 ∧ egLowLock 6 = 2 := by
  decide +kernel
/-- R267, worked out by hand: `-ceil(1024 * 16 / 32)`, `-ceil(2 * 2 / 32)`, `-ceil(33 * 2 / 32)`. -/
theorem test_attack : att 1023 4 = -512 ∧ att 1 1 = -1 ∧ att 32 1 = -3 := by decide
/-- R263: lock 12 at rate 0 steps by 1; the two lower candidates are `rate[1]`, `rate[0]`; `rate = 63` steps by 4. -/
theorem test_step_code : stepCode Config.mono true 1 0 12 0 = 1 ∧ stepCode Config.mono true 1 6 12 0 = 1
    ∧ stepCode Config.mono true 1 6 13 0 = 0 ∧ stepCode Config.mono true 31 63 0 0 = 4 ∧ stepCode Config.mono true 31 48 0 0 = 1
    ∧ stepCode Config.mono true 0 63 0 0 = 0 ∧ stepCode Config.mono false 31 63 0 0 = 0 := by decide +kernel
/-- R297: a quarter turn at no attenuation gives the maximum, 8168; half a turn later its negative (the example of file 49). -/
theorem test_operator : operatorOut Config.mono 0x100 0 = 8168 ∧ operatorOut Config.mono 0x300 0 = -8168
    ∧ operatorOut Config.mono 0x100 0x3FF = 0 := by decide +kernel
/-- R225, R227: tremolo 126 at 0, 0 at 63 and 64, 126 at 127. -/
theorem test_tremolo : lfoAm 0 = 126 ∧ lfoAm 63 = 0 ∧ lfoAm 64 = 0 ∧ lfoAm 127 = 126 ∧ lfoAm 1 = 124 ∧ lfoPm 127 = 31 := by decide
/-- R318: `dac_data = 0x80` is 0, `0xFF` with the ninth bit is 255. -/
theorem test_override : dacs { Regs.reset.glob with dacData := 0x80 } = 0
    ∧ dacs { Regs.reset.glob with dacData := 0xFF, test2c := 8 } = 255 ∧ dacs Regs.reset.glob = -256 := by decide
/-- The stereo example of file 49: the word of 8168 and 0. -/
theorem test_dac_word : dacWordOf 16 8168 0 = 0x1FE80000 ∧ dacWordOf 2 (-1) 1 = 13 := by decide
/-- R109: the worked example of file 40, one tick. -/
theorem test_reset_shift : rstNext Config.mono true { Regs.reset with rst := { ic := true, rstSr := 0b0111 } }
    = { ic := true, rstSr := 0b1111 }
    ∧ rstNext Config.mono false { Regs.reset with rst := { ic := true, rstSr := 0b1111 } } = { ic := false, rstSr := 0b1110 } := by
  decide
/-- R206: the reset scan starts at position 0 and moves to 1; position 31 restarts. -/
theorem test_scan : after (tick Config.mono 0 id) (·.pos5) = some 1 ∧ after (tick Config.mono 31 id) (·.pos5) = some 0
    ∧ after (tick Config.mono 3 id) (·.pos5) = some 4 := by decide +kernel
/-- R336: the count passes 1023. -/
theorem test_timer_a : after (tick Config.mono 3 fun r => { r with tmr := { r.tmr with taCnt := 1023, taLoadLock := true } })
    (fun r => (r.tmr.taCnt, r.tmr.taOvf)) = some (0, true) := by decide +kernel

/-! ### Witnesses: states that meet the hypotheses of the statements -/

/-- A decidable form of `signedIn`. -/
def signedOk (w : Nat) (v : Int) : Bool := decide (-(2 ^ (w - 1)) ≤ v) && decide (v ≤ 2 ^ (w - 1) - 1)

/-- A decidable form of `Regs.Inv`. -/
def regsOk (c : Config) (r : Regs) : Bool :=
  (r.scan.regCnt1 == r.scan.fsmCnt1 && r.scan.regCnt2 == r.scan.fsmCnt2)
    && (decide (r.rst.rstSr < 2 ^ c.resetDebounce) && decide (r.bus.busyCnt ≤ c.busyLen) && decide (r.eg.quot.toNat < c.egPrescale))
    && (r.eg.shiftLock == egShiftLock r.eg.timer && r.eg.lowLock == egLowLock r.eg.timer)
    && (decide (∀ k : Fin 24, r.key.konCsm[k] = true → (chanOf k).val = 2)
      && decide (∀ k : Fin 24, -8188 ≤ r.op.opOut[k].toInt ∧ r.op.opOut[k].toInt ≤ 8188)
      && decide (∀ k : Fin 6, -8188 ≤ r.op.op1Prev[k].toInt ∧ r.op.op1Prev[k].toInt ≤ 8188))
    && (decide (∀ k : Fin 6, signedOk c.accBits r.acc.chAcc[k] = true)
      && decide (∀ k : Fin 6, signedOk c.accBits r.acc.chOut[k] = true))
    && (signedOk 9 r.acc.monoOut && signedOk c.dacWordBits r.acc.mixL && signedOk c.dacWordBits r.acc.mixR
      && decide (r.acc.dacWord < 2 ^ (2 * c.dacWordBits)))

/-- A decidable form of `State.Inv`, for the states `tick` builds; that the configuration is well-formed is shown once for each. -/
def invOk (s : State) : Bool :=
  decide (s.raw.prescCnt < s.cfg.prescPeriod) && decide (s.raw.dclkCnt < s.cfg.dclkPeriod)
    && decide (s.raw.dacSr < 2 ^ (2 * s.cfg.dacWordBits)) && regsOk s.cfg s.cur && decide (s.nxt = s.cur)

theorem signedIn_of {w : Nat} {v : Int} (h : signedOk w v = true) : signedIn w v := by
  simp only [signedOk, Bool.and_eq_true, decide_eq_true_eq] at h
  exact h

theorem regsInv_of {c : Config} {r : Regs} (h : regsOk c r = true) : r.Inv c := by
  simp only [regsOk, Bool.and_eq_true, decide_eq_true_eq, beq_iff_eq] at h
  obtain ⟨⟨⟨⟨⟨h1, ⟨h2, h3⟩, h4⟩, h5, h6⟩, ⟨h7, h8⟩, h9⟩, h10, h11⟩, ⟨⟨h12, h13⟩, h14⟩, h15⟩ := h
  exact ⟨h1, h2, h3, h4, h5, h6, h7, h8, h9, fun k => signedIn_of (h10 k), fun k => signedIn_of (h11 k), signedIn_of h12,
    signedIn_of h13, signedIn_of h14, h15⟩

theorem inv_of {s : State} (h1 : s.cfg.wf = true) (h : invOk s = true) : s.Inv := by
  simp only [invOk, Bool.and_eq_true, decide_eq_true_eq] at h
  obtain ⟨⟨⟨⟨h2, h3⟩, h4⟩, h5⟩, h6⟩ := h
  exact ⟨h1, h2, h3, h4, regsInv_of h5, h6 ▸ regsInv_of h5, fun _ => h6⟩

/-- The premises of a statement about a tick out of reset. -/
def Ready (s : State) : Prop := s.Inv ∧ s.tickStarts = true ∧ s.cur.rst.ic = false

/-- The premises of a statement about the visit of slot `k`. -/
def Visits (s : State) (k : Fin 24) : Prop := Ready s ∧ s.cur.frontSlot = some k

theorem ready_of {s : State} (hc : s.cfg.wf = true) (h : (invOk s && s.tickStarts && !s.cur.rst.ic) = true) : Ready s := by
  simp only [Bool.and_eq_true, Bool.not_eq_true'] at h
  exact ⟨inv_of hc h.1.1, h.1.2, h.2⟩

theorem visits_of {s : State} {k : Fin 24} (hc : s.cfg.wf = true)
    (h : (invOk s && s.tickStarts && !s.cur.rst.ic && s.cur.frontSlot == some k) = true) : Visits s k := by
  simp only [Bool.and_eq_true, beq_iff_eq] at h
  exact ⟨ready_of hc (by simpa using h.1), h.2⟩

/-- A tick in reset. -/
def inReset : State := tick Config.mono 5 fun r => { r with rst := { ic := true, rstSr := 1 } }

/-- The state one rising edge before phase 2. -/
def beforePhase2 (c : Config) : State := { State.created c with raw := { Raw.reset with prescCnt := 3 } }

/-- The state with one input record to come. -/
def State.driving (s : State) (p : Pins) : State := { s with host := [p] }

/-- `DecodeAfterEncode`: well-formed terms of both formats. -/
theorem witness_DecodeAfterEncode : (Instr.tl 1 3 2 0xFF).wf = true ∧ (Instr.rfloat 3).wf = true
    ∧ (Instr.reserved 1 0xFF 0).wf = true := by decide
/-- `StepRunsBusOperation`. -/
theorem witness_StepRunsBusOperation : ∃ s : State, ∃ i : Instr, decode .bus
    [(busWord s.nextPins.cs s.nextPins.rd s.nextPins.wr s.nextPins.address).zeroExtend 8, s.nextPins.data] = .ok i :=
  ⟨State.reset.withFetchWord 5 (0b10111 + 256 * 0x71), .wdata false 1 0x71, by decide +kernel⟩
/-- `TickRunsRegisterWrite`: a write of each class whose event occurs, and one whose event does not. -/
theorem witness_TickRunsRegisterWrite :
    let at_ (w d : Nat) (c : WriteClass) (j : Instr) (b : Bool) : Prop :=
      let s := State.reset.withFetchWord 9 (w + 65536 * d)
      decode .reg [s.cur.bus.regAddr, s.cur.bus.regBank.zeroExtend 8, BitVec.ofNat 8 d] = .ok j ∧ writeClass j = c
        ∧ BitVec.ofNat 8 d = s.writeByte c ∧ s.cur.writeOccurs c = b
    at_ 0x28 0xF0 .pulse (.keyon 0xF0) true ∧ at_ 0x4A 0x7F .operator (.tl 0 2 2 0x7F) true
      ∧ at_ 0x1B6 0xC0 .channel (.panLfo 1 2 0xC0) true := by decide +kernel
theorem witness_TickRunsRegisterWrite_no : ∃ j, ∃ d : Byte, decode .reg
      [State.reset.cur.bus.regAddr, State.reset.cur.bus.regBank.zeroExtend 8, d] = .ok j
    ∧ d = State.reset.writeByte (writeClass j) ∧ State.reset.cur.writeOccurs (writeClass j) = false :=
  ⟨.reserved 0 0 0, 0, by decide⟩
/-- `FrontIsWriteTarget`: a gap position; the pulse; matches at the first and the last slot and channel. -/
theorem witness_FrontIsWriteTarget : (tick Config.mono 31 id).cur.frontSlot = none ∧ globalPulse (State.reset.withFetchWord 9 0x21).cur = true
    ∧ operatorMatch (State.reset.withFetchWord 9 0x30).cur = true
    ∧ operatorMatch (State.reset.withFetchWord 9 0x19E).cur = true
    ∧ channelMatch (State.reset.withFetchWord 9 0xA0).cur = true
    ∧ channelMatch (State.reset.withFetchWord 9 0x1B6).cur = true := by decide +kernel
/-- `IdleCompletes`, `WaddrCompletes`, `WdataCompletes`, `RstatCompletes`, `RfloatCompletes`, out of reset; the status read
in and out of test-read mode. -/
theorem witness_BusCompletes : State.reset.cur.rst.ic = false ∧ State.reset.cfg.floatBus = .bus
    ∧ State.reset.cur.glob.test21[6] = false := by decide
theorem witness_BusCompletes_test :
    (tick Config.mono 0 fun r => { r with glob := { r.glob with test21 := 0x40 } }).cur.glob.test21[6] = true
    ∧ (tick Config.mono 0 fun r => { r with glob := { r.glob with test21 := 0x40 } }).cur.rst.ic = false
    ∧ (tick { Config.mono with floatBus := .fixed 0xFF } 0 id).cfg.floatBus = .fixed 0xFF
    ∧ (tick { Config.mono with floatBus := .unknown 7 } 0 id).cfg.floatBus = .unknown 7 := by decide
/-- `RstatCompletes`, in reset. -/
theorem witness_RstatCompletes_reset : inReset.cur.rst.ic = true ∧ inReset.cur.glob.test21[6] = false := by decide
/-- `SlotWritesComplete`, `ChannelWritesComplete`: the boundary values of `cib`. -/
theorem witness_WritesComplete : (0 : BitVec 2) ≠ 3 ∧ (2 : BitVec 2) ≠ 3 := by decide
/-- `PrescalerCounts`: a rising edge at the phase-1 position, at the phase-2 position, at another; no rising edge. -/
theorem witness_PrescalerCounts : State.reset.rises = true ∧ State.reset.tickStarts = true
    ∧ (beforePhase2 Config.mono).rises = true ∧ (beforePhase2 Config.mono).tickEnds = true
    ∧ ({ State.reset with raw := { Raw.reset with prescCnt := 5 } }).rises = true
    ∧ (State.driving State.reset (Pins.idle false)).rises = false := by decide
/-- `CommitOnlyAtPhase2`: a step with phase 2, one with phase 1, one with neither. -/
theorem witness_CommitOnlyAtPhase2 : (beforePhase2 Config.mono).cfg.wf = true ∧ (beforePhase2 Config.mono).tickEnds = true
    ∧ State.reset.tickEnds = false ∧ (State.driving State.reset (Pins.idle false)).tickStarts = false := by decide +kernel
/-- `Phase1ReadsNoNext`, `ResetSynchroniserShifts`. -/
theorem witness_tickStarts : State.reset.tickStarts = true ∧ inReset.tickStarts = true := by decide
/-- `CountersAdvance`: in the reset pulse, at the restart position, elsewhere. -/
theorem witness_CountersAdvance :
    (let s := tick Config.mono 9 fun r => { r with rst := { ic := true, rstSr := 15 } }
     s.tickStarts = true ∧ fsmReset s.cfg s.cur = true)
    ∧ (let s := tick Config.mono 31 id
       s.tickStarts = true ∧ (enables s.cfg s.cur).restart = true ∧ fsmReset s.cfg s.cur = false)
    ∧ (let s := tick Config.stereo 30 id
       s.tickStarts = true ∧ (enables s.cfg s.cur).restart = false ∧ fsmReset s.cfg s.cur = false) := by decide +kernel
/-- `ResetForcesEveryPair`. -/
theorem witness_ResetForcesEveryPair : inReset.tickStarts = true ∧ inReset.cur.rst.ic = true := by decide
/-- `VAR_STEREO` with divided clocks three oscillator cycles long, so that divided clock 1 falls on phase-2 events too. -/
def fastDclk : Config := { Config.stereo with dclkPeriod := 3 }
/-- R361, R362: a divided clock 1 in the sample whose commit ends a reset leaves the serializer at 0. -/
theorem test_release_serial :
    (let r := { Regs.reset with rst := { ic := true, rstSr := 15 } }
     let s : State :=
      { State.created fastDclk with
        cur := r, nxt := { r with rst := { ic := false, rstSr := 14 } }
        raw := { Raw.reset with prescCnt := 3, dclkCnt := 0, bck := true } }
     match step s with
     | .next t => s.cfg.wf && s.tickEnds && s.sampled.dclk1Event && !t.cur.rst.ic && !t.raw.bck && !t.raw.lrc && !t.raw.wc
     | .fault _ => false
     | .refused _ => false) = true := by decide +kernel
/-- `ResetGivesCanonicalIdle`: the least number of ticks, both variants, the clocks in step and not. -/
theorem witness_ResetGivesCanonicalIdle :
    (let s := tick Config.mono 17 fun r => { r with bus := { r.bus with busyCnt := 9 } }
     s.cfg.wf = true ∧ s.raw.prescCnt = 0 ∧ s.cfg.resetDebounce ≤ 4 ∧ s.cfg.variant = .mono)
    ∧ (let s := tick Config.stereo 17 id
       s.cfg.wf = true ∧ s.raw.prescCnt = 0 ∧ s.cfg.resetDebounce ≤ 4 ∧ s.cfg.dclkPeriod = s.cfg.prescPeriod
         ∧ s.raw.dclkCnt = 0)
    ∧ (let s := { tick fastDclk 17 id with raw := { Raw.reset with dclkCnt := 2, bck := true } }
       s.cfg.wf = true ∧ s.raw.prescCnt = 0 ∧ s.cfg.resetDebounce ≤ 5 ∧ s.cfg.dclkPeriod ≠ s.cfg.prescPeriod) := by
  decide +kernel
/-- `StepKeepsInvariant`, from a state in the middle of a scan. -/
theorem witness_StepKeepsInvariant : ∃ s t : State, s.Inv ∧ step s = .next t :=
  ⟨tick Config.stereo 17 id, _, inv_of test_wf_config.2 (by decide +kernel), Machine.State.step_eq _⟩
/-- `HandOverAndCapture`: an address, a data byte, neither. -/
theorem witness_HandOverAndCapture :
    (let s := tick Config.mono 3 fun r => { r with bus := { r.bus with waEn := true, wdEn := true } }
     s.tickStarts = true ∧ s.cur.rst.ic = false ∧ s.cur.bus.waEn = true)
    ∧ (let s := tick Config.mono 3 fun r => { r with bus := { r.bus with wdEn := true } }
       s.tickStarts = true ∧ s.cur.rst.ic = false ∧ s.cur.bus.waEn = false ∧ s.cur.bus.wdEn = true)
    ∧ (State.reset.tickStarts = true ∧ State.reset.cur.rst.ic = false ∧ State.reset.cur.bus.waEn = false
       ∧ State.reset.cur.bus.wdEn = false) := by decide
/-- `BusyCountsDown`: in reset, at the start, at counts 1 and 0. -/
theorem witness_BusyCountsDown : inReset.cur.rst.ic = true
    ∧ (let s := tick Config.mono 3 fun r => { r with bus := { r.bus with wdEn := true, busyCnt := 1 } }
       s.tickStarts = true ∧ s.cur.rst.ic = false ∧ s.cur.bus.wdEn = true)
    ∧ (let s := tick Config.mono 3 fun r => { r with bus := { r.bus with busyCnt := 1 } }
       s.tickStarts = true ∧ s.cur.rst.ic = false ∧ s.cur.bus.wdEn = false ∧ s.cur.bus.busyCnt ≠ 0)
    ∧ State.reset.cur.bus.busyCnt = 0 := by decide
/-- `ReadsHaveNoSideEffect`: two reads of one address in successive samples, no tick ending in the second. -/
theorem witness_ReadsHaveNoSideEffect :
    (let p := strobe true false 0 0
     let q := { p with clock := false }
     p.cs = true ∧ p.rd = true ∧ q.cs = true ∧ q.rd = true ∧ q.wr = false ∧ q.address = p.address
       ∧ (match step { State.reset with host := [p, q] } with
         | .next t => !t.tickEnds
         | .fault _ => false
         | .refused _ => false) = true) := by decide +kernel
/-- `OutputsFollowState`: a status read, a floating read, no read. -/
theorem witness_OutputsFollowState :
    (let p := (State.driving State.reset (strobe true false 0 0)).nextPins
     (p.cs && p.rd) = true ∧ p.address = 0)
    ∧ (let p := (State.driving State.reset (strobe true true 3 9)).nextPins
       (p.cs && p.rd) = true ∧ p.address ≠ 0)
    ∧ (let p := State.reset.nextPins
       (p.cs && p.rd) = false) := by decide
/-- `OnlyFrontSlotChanges`: slot 23 and channel 5 while slot 0 is in front, any slot at a gap. -/
theorem witness_OnlyFrontSlotChanges : Visits (tick Config.mono 0 id) 0 ∧ (tick Config.mono 0 id).cur.frontSlot ≠ some 23
    ∧ Ready (tick Config.mono 3 id) ∧ (tick Config.mono 3 id).cur.frontSlot = none :=
  ⟨visits_of test_wf_config.1 (by decide +kernel), by decide, ready_of test_wf_config.1 (by decide +kernel), by decide⟩
/-- `OnlyFrontSlotChanges`: no match and no pulse; a pulse just outside each range of addresses. -/
theorem witness_OnlyFrontSlotChanges_hold :
    let s (b : BitVec 1) (a : Byte) := tick Config.mono 3 fun r =>
      { r with bus := { r.bus with wdEn := true, regBank := b, regAddr := a } }
    operatorMatch State.reset.cur = false ∧ channelMatch State.reset.cur = false ∧ globalPulse State.reset.cur = false
      ∧ (s 0 0x2D).tickStarts = true ∧ (s 0 0x2D).cur.rst.ic = false ∧ globalPulse (s 0 0x2D).cur = true
      ∧ ¬(s 1 0x2C).cur.bus.regBank = 0 ∧ (s 0 0xA7).cur.bus.regAddr.toNat % 4 = 3
      ∧ ¬(s 0 0xA3).cur.bus.regAddr.toNat / 4 = 0x29 ∧ ¬(s 1 0xAC).cur.bus.regBank = 0 := by decide
/-- `KeyOnDistribution`: the last slot, named by the code of channel 5. -/
theorem witness_KeyOnDistribution :
    let s := tick Config.mono 30 fun r => { r with glob := { r.glob with konOp := 8, konCh := 6 } }
    Visits s 23 ∧ (23 : Fin 24).val % 6 + (23 : Fin 24).val % 6 / 3 = s.cur.glob.konCh.toNat :=
  ⟨visits_of test_wf_config.1 (by decide +kernel), by decide⟩
/-- `KeyHistoryShifts`, `PhaseAccumulates`, `EnvelopeOutputSaturates`, `OperatorOutput`, `ChannelAccumulates`: the first and
the last slot, the first of the later windows, both variants. -/
theorem witness_Visits : Visits (tick Config.mono 0 id) 0 ∧ Visits (tick Config.stereo 8 id) 6
    ∧ Visits (tick Config.mono 30 id) 23 ∧ Visits (tick Config.stereo 6 id) 5 :=
  ⟨visits_of test_wf_config.1 (by decide +kernel), visits_of test_wf_config.2 (by decide +kernel),
    visits_of test_wf_config.1 (by decide +kernel), visits_of test_wf_config.2 (by decide +kernel)⟩
/-- `CsmKeyOn`, `TimerACounts`, `TimerBCounts`, `LfoCounts`, `EnvelopeTimerSteps`: ticks with and without each clock. -/
theorem witness_ClockedTicks :
    let e (q : Nat) := enables Config.mono (tick Config.mono q id).cur
    (e 7).tmrCoarse = true ∧ (e 3).tmrFine = true ∧ (e 31).egClock = true ∧ (e 31).restart = true
      ∧ (e 0).tmrCoarse = false ∧ (e 0).egClock = false ∧ (e 0).restart = false
      ∧ (tick Config.mono 31 id).tickStarts = true ∧ (tick Config.mono 31 id).cur.rst.ic = false := by decide +kernel
/-- `TimerACounts`, `TimerBCounts`, `TimerResetRequestsClear`: a reset request, with and without a `MODE` write. -/
theorem witness_TimerResetRequestsClear :
    let s := tick Config.mono 3 fun r => { r with glob := { r.glob with taReset := true, tbReset := true } }
    let u := tick Config.mono 3 fun r =>
      { r with glob := { r.glob with taReset := true }, bus := { r.bus with regAddr := 0x27, wdEn := true } }
    s.tickStarts = true ∧ s.cur.rst.ic = false ∧ s.cur.glob.taReset = true ∧ s.cur.bus.wdEn = false
      ∧ u.tickStarts = true ∧ u.cur.rst.ic = false ∧ u.cur.bus.regBank = 0 ∧ u.cur.bus.regAddr = 0x27 ∧ u.cur.bus.wdEn = true
      ∧ u.cur.bus.waEn = false := by decide
/-- `LfoCounts`: at the restart with the fast counter at its period, one below it, held by the test bit; the LFO enabled. -/
theorem witness_LfoCounts :
    let s (n : BitVec 7) (t : Byte) := tick Config.mono 31 fun r =>
      { r with lfo := { r.lfo with quot := n }, glob := { r.glob with lfoEn := true, test21 := t } }
    (s 108 0).tickStarts = true ∧ (s 108 0).cur.rst.ic = false ∧ (s 108 0).cur.lfo.quot.toNat &&& 108 = 108
      ∧ (s 107 0).cur.lfo.quot.toNat &&& 108 ≠ 108 ∧ (s 0 2).cur.glob.test21[1] = true
      ∧ (s 0 0).cur.glob.test21[1] = false ∧ Config.mono.lfoPeriod.getD 0 0 = 108 := by decide +kernel
/-- `PlainIncrement`: both detune codes of amount 0. -/
theorem witness_PlainIncrement : Config.mono.pmSh1.getD 0 [] = List.replicate 8 7
    ∧ Config.mono.pmSh2.getD 0 [] = List.replicate 8 7 ∧ (0 : BitVec 3).toNat % 4 = 0 ∧ (4 : BitVec 3).toNat % 4 = 0 := by decide
/-- `FrequencySelection`: each position of channel 2 with the special sets selected. -/
theorem witness_FrequencySelection :
    let r : Regs := { Regs.reset with glob := { Regs.reset.glob with ch3Mode := 1 } }
    r.glob.ch3Mode ≠ 0 ∧ (Config.monoRec 2).ch3Sel = true ∧ (2 : Fin 24).val / 6 = 0 ∧ (8 : Fin 24).val / 6 = 1
      ∧ (14 : Fin 24).val / 6 = 2 ∧ (20 : Fin 24).val / 6 = 3 := by decide
/-- `EnvelopeTimerSteps`: a tick in which the timer steps from 4095 to 0, one in which it steps from 0, one in which it does
not. -/
theorem witness_EnvelopeTimerSteps :
    let s (n : BitVec 2) (t : BitVec 12) := tick Config.mono 31 fun r => { r with eg := { r.eg with quot := n, timer := t } }
    (s 1 4095).tickStarts = true ∧ (s 1 4095).cur.rst.ic = false
      ∧ ((s 1 4095).cur.eg.quot.toNat + 1) % 3 = 2 ∧ ((s 1 4095).cur.eg.timer.toNat + 1) % 4096 = 0
      ∧ ((s 1 0).cur.eg.timer.toNat + 1) % 4096 ≠ 0 ∧ ((s 0 0).cur.eg.quot.toNat + 1) % 3 ≠ 2 ∧ (s 1 0).cfg.wf = true := by decide +kernel

/-- A state that visits slot 0 with its envelope as given: key now and before, level, state, sustain level, SSG-EG mode,
attack rate. -/
def envelope (nkon okon : Bool) (l : BitVec 10) (st : EgState) (sl ssg : BitVec 4) (ar : BitVec 5) : State :=
  tick Config.mono 0 fun r =>
    { r with
      key := { r.key with konLatch := setAt r.key.konLatch 0 nkon, konPrev := setAt r.key.konPrev 0 okon }
      eg := { r.eg with level := setAt r.eg.level 0 l, state := setAt r.eg.state 0 st }
      slot := { r.slot with sl := setAt r.slot.sl 0 sl, ssg := setAt r.slot.ssg 0 ssg, ar := setAt r.slot.ar 0 ar } }

/-- `KeyOnEdgeRestarts`: a rising edge, below and at the instant-attack rate. (Its first clause: every visit.) -/
theorem witness_KeyOnEdgeRestarts :
    let s (ar : BitVec 5) := envelope true false 0x3FF .release 0 0 ar
    Visits (s 31) 0 ∧ Visits (s 1) 0 ∧ (s 31).cur.key.konLatch[0] = true ∧ (s 31).cur.key.konPrev[0] = false
      ∧ 62 ≤ (visitRate (s 31).cfg (enables (s 31).cfg (s 31).cur) (s 31).cur 0).2 :=
  ⟨visits_of test_wf_config.1 (by decide +kernel), visits_of test_wf_config.1 (by decide +kernel), by decide +kernel⟩
/-- `EnvelopeStateOrder`: attack at level 0 and 1, decay at both ends of the threshold band, sustain level 15 included. -/
theorem witness_EnvelopeStateOrder :
    Visits (envelope true true 0 .attack 0 0 31) 0 ∧ Visits (envelope true true 1 .attack 0 0 31) 0
    ∧ Visits (envelope true true 0x0F .decay 0 0 31) 0 ∧ Visits (envelope true true 0x3EF .decay 15 0 31) 0
    ∧ (envelope true true 0x3E0 .decay 15 0 31).cur.eg.level[0].toNat / 16 = 2 * 31
    ∧ (envelope true true 0x0F .decay 0 0 31).cur.eg.level[0].toNat / 16 = 2 * 0
    ∧ (envelope true true 0 .decay 0 0 31).cur.eg.ssgRepeat[0] = false :=
  ⟨visits_of test_wf_config.1 (by decide +kernel), visits_of test_wf_config.1 (by decide +kernel),
    visits_of test_wf_config.1 (by decide +kernel), visits_of test_wf_config.1 (by decide +kernel),
    by decide +kernel⟩
/-- `EnvelopeReleasesToIdle`: the key off; the first level that drops. -/
theorem witness_EnvelopeReleasesToIdle :
    let s := envelope false true 0x3F0 .sustain 0 0 0
    Visits s 0 ∧ s.cur.key.konLatch[0] = false ∧ s.cur.eg.ssgRepeat[0] = false ∧ s.cur.slot.ssg[0][3] = false
      ∧ s.cur.eg.ssgInv[0] = false ∧ s.cur.eg.ssgHoldup[0] = false ∧ s.cur.eg.state[0] ≠ .attack
      ∧ 0x3F0 ≤ s.cur.eg.level[0].toNat :=
  ⟨visits_of test_wf_config.1 (by decide +kernel), by decide +kernel⟩
/-- `EnvelopeMonotone`: a visit for each line of its last two clauses: key-on edge, attack, drop, decay, the end of a decay,
SSG-EG. -/
theorem witness_EnvelopeMonotone_exact :
    Visits (envelope true false 0x3FF .release 0 0 31) 0 ∧ Visits (envelope true true 500 .attack 0 0 20) 0
    ∧ Visits (envelope true true 0 .attack 0 0 20) 0 ∧ Visits (envelope true true 0x3F0 .sustain 0 0 20) 0
    ∧ Visits (envelope true true 0x10 .decay 1 0 20) 0 ∧ Visits (envelope false true 511 .sustain 0 8 20) 0 :=
  ⟨visits_of test_wf_config.1 (by decide +kernel), visits_of test_wf_config.1 (by decide +kernel),
    visits_of test_wf_config.1 (by decide +kernel), visits_of test_wf_config.1 (by decide +kernel),
    visits_of test_wf_config.1 (by decide +kernel), visits_of test_wf_config.1 (by decide +kernel)⟩
/-- `EnvelopeMonotone`: an attack and a decay that step. -/
theorem witness_EnvelopeMonotone :
    (let s := envelope true true 500 .attack 0 0 20
     s.tickStarts = true ∧ s.cur.rst.ic = false ∧ s.cur.slot.ssg[0][3] = false ∧ s.cur.eg.ssgInv[0] = false
       ∧ after s (·.eg.state[0]) = some .attack)
    ∧ after (envelope true true 500 .decay 0 0 20) (·.eg.state[0]) = some .decay := by decide +kernel
/-- `SsgFlagsFollowLevel`: SSG-EG off and on. -/
theorem witness_SsgFlagsFollowLevel :
    Visits (envelope true true 512 .decay 0 0xA 31) 0 ∧ Visits (envelope true true 512 .decay 0 0 31) 0
    ∧ (envelope true true 512 .decay 0 0xA 31).cur.slot.ssg[0][3] = true :=
  ⟨visits_of test_wf_config.1 (by decide +kernel), visits_of test_wf_config.1 (by decide +kernel), by decide +kernel⟩
/-- `AttackIncrement`: the corners. -/
theorem witness_AttackIncrement : att 1 4 = asr (-((1 : Int) + 1) * 2 ^ 4) 5 ∧ att 1023 1 = asr (-((1023 : Int) + 1) * 2 ^ 1) 5 := by
  decide
/-- `OperatorShape`: the default antilog table has 10-bit entries. -/
theorem witness_OperatorShape : tableOf 256 1024 Config.mono.exprom = true := by decide +kernel
/-- `ModulationInput`: the next position is a gap, a first operator, a later one (of each bank). -/
theorem witness_ModulationInput :
    let p (q : Nat) := (4 * (tick Config.mono q id).cur.scan.regCnt2.toNat + (tick Config.mono q id).cur.scan.regCnt1.toNat + 1) % 32
    p 2 % 4 = 3 ∧ p 31 = 0 ∧ p 5 = 6 ∧ p 7 = 8 ∧ p 29 = 30 ∧ (tick Config.mono 29 id).tickStarts = true := by decide +kernel
/-- `MonoOutputLoads`: a load of a sum, of the override, no load, a load at a gap. -/
theorem witness_MonoOutputLoads :
    let e (q : Nat) := enables Config.mono (tick Config.mono q id).cur
    let s := tick Config.mono 6 fun r => { r with glob := { r.glob with dacEn := true } }
    s.cfg.variant = .mono ∧ s.tickStarts = true ∧ s.cur.rst.ic = false ∧ s.cur.glob.dacEn = true
      ∧ (e 6).dacLoad = true ∧ (e 6).dacOutSel = true ∧ (e 0).dacLoad = true ∧ (e 0).dacOutSel = false ∧ (e 3).dacLoad = false
      ∧ (tick Config.mono 0 id).cur.frontChan = some 0 := by decide +kernel
theorem witness_MonoOutputLoads_gap :
    let c := { Config.mono with fsmMono := Config.tabulate (fun q => { Config.monoRec q with dacLoad := q == 3 }) 32 }
    let s := tick c 3 id
    s.cfg.wf = true ∧ s.tickStarts = true ∧ (enables s.cfg s.cur).dacLoad = true ∧ s.cur.frontChan = none := by decide +kernel
/-- `StereoMixes`: the first and the last channel's window, the word load. -/
theorem witness_StereoMixes : Visits (tick Config.stereo 0 id) (slotOf 0 0) ∧ Visits (tick Config.stereo 6 id) (slotOf 0 5)
    ∧ Ready (tick Config.stereo 7 id) ∧ (tick Config.stereo 7 id).cfg.variant = .stereo
    ∧ (enables Config.stereo (tick Config.stereo 7 id).cur).dacLoad = true
    ∧ (enables Config.stereo (tick Config.stereo 8 id).cur).dacLoad = false :=
  ⟨visits_of test_wf_config.2 (by decide +kernel), visits_of test_wf_config.2 (by decide +kernel),
    ready_of test_wf_config.2 (by decide +kernel), by decide +kernel⟩
/-- `SerializerShifts`: divided clock 1, divided clock 2, another count, no edge; a sample in reset (`ic` 1 before its commit; see
`test_release_serial` for one whose commit ends the reset). -/
theorem witness_SerializerShifts :
    let s (j : Nat) := { State.created Config.stereo with raw := { Raw.reset with prescCnt := j, dclkCnt := j } }
    (s 0).cfg.wf = true ∧ (s 0).cfg.variant = .stereo ∧ (s 0).rises = true ∧ (s 3).rises = true
      ∧ (s 3).raw.dclkCnt = (s 3).cfg.dclkPeriod / 2 ∧ (s 5).rises = true
      ∧ (State.driving (s 0) (Pins.idle false)).rises = false ∧ inReset.cur.rst.ic = true := by decide +kernel

end Sys2Proof.Tests
end

section
/-! Clock and commit (`spec/40_clock_prescaler.md` R102 to R106): when the two phases of a tick occur, and what a step leaves
in the two halves of the pairs. -/

namespace Sys2Proof.Machine

/-- The bound R102 puts on the clock divider, for the period of the variant in use. -/
theorem two_le_prescPeriod {c : Config} (h : c.wf = true) : 2 ≤ c.prescPeriod := by
  have hp : c.periodsOk = true := by
    simp only [Config.wf, Bool.and_eq_true] at h
    obtain ⟨⟨⟨hperiods, -⟩, -⟩, -⟩ := h
    exact hperiods
  simp only [Config.periodsOk, Bool.and_eq_true, decide_eq_true_eq] at hp
  obtain ⟨⟨⟨⟨⟨⟨hmono, hstereo⟩, -⟩, -⟩, -⟩, -⟩, -⟩ := hp
  unfold Config.prescPeriod
  split
  · exact hmono
  · exact hstereo

namespace State

theorem tickStarts_iff (s : State) : s.tickStarts = true ↔ s.rises = true ∧ s.raw.prescCnt = 0 := by
  simp only [tickStarts, phase1Event, rises, sampled_prescCnt, Bool.and_eq_true, beq_iff_eq]

theorem tickEnds_iff (s : State) :
    s.tickEnds = true ↔ s.rises = true ∧ s.raw.prescCnt = s.cfg.prescPeriod / 2 := by
  simp only [tickEnds, phase2Event, rises, sampled_prescCnt, sampled_cfg, Bool.and_eq_true, beq_iff_eq]

/-- The two phases of a tick fall in different samples: `presc_cnt` is 0 at one and at least 1 at the other. -/
theorem tickStarts_eq_false_of_tickEnds {s : State} (hwf : s.cfg.wf = true) (he : s.tickEnds = true) :
    s.tickStarts = false := by
  have hperiod : 2 ≤ s.cfg.prescPeriod := two_le_prescPeriod hwf
  obtain ⟨-, hend⟩ := s.tickEnds_iff.mp he
  refine Bool.eq_false_iff.mpr fun hs => ?_
  obtain ⟨-, hstart⟩ := s.tickStarts_iff.mp hs
  omega

theorem stepTo_nxt_of_not {s : State} (h : s.tickStarts = false) : s.stepTo.nxt = s.nxt := by
  rw [stepTo_nxt, afterTick_nxt_of_not h]

theorem stepTo_cur_of_not {s : State} (h : s.tickEnds = false) : s.stepTo.cur = s.cur := by
  rw [stepTo_cur, if_neg (by simp [h])]

/-- The commit takes the `next` halves from before the step: phase 1, which could change them, is in another sample. -/
theorem stepTo_cur_of_tickEnds {s : State} (hwf : s.cfg.wf = true) (h : s.tickEnds = true) : s.stepTo.cur = s.nxt := by
  rw [stepTo_cur, if_pos h, afterTick_nxt_of_not (tickStarts_eq_false_of_tickEnds hwf h)]

end State

/-- Settles O21, field by field of the closed form of a step. -/
theorem commitOnlyAtPhase2 : Obligations.CommitOnlyAtPhase2 := by
  intro s hwf
  have hexcl : ¬(s.tickStarts = true ∧ s.tickEnds = true) := by
    rintro ⟨hs, he⟩
    exact Bool.eq_false_iff.mp (State.tickStarts_eq_false_of_tickEnds hwf he) hs
  exact ⟨s.stepTo, s.step_eq, State.stepTo_cur_of_tickEnds hwf, State.stepTo_cur_of_not, State.stepTo_nxt_of_not,
    hexcl, s.stepTo_cfg⟩

end Sys2Proof.Machine
end

section
/-! The slot and the channel in front of the scan, and the matches of a register write (`spec/10_state.md` R24,
`spec/42_register_scan.md` R141 to R147), on numbers. -/

namespace Sys2Proof.Machine

/-! ### The fields of the address and of the scan position as numbers (`spec/30_encoding.md` R83) -/

theorem addr_cib_toNat (a : Byte) : (a.extractLsb' 0 2).toNat = a.toNat % 4 := by
  rw [BitVec.extractLsb'_toNat, Nat.shiftRight_zero]

theorem addr_pos_toNat (a : Byte) : (a.extractLsb' 2 2).toNat = a.toNat / 4 % 4 := by
  rw [BitVec.extractLsb'_toNat, Nat.shiftRight_eq_div_pow]

theorem cib_gap_toNat : (3 : BitVec 2).toNat = 3 := rfl

theorem cnt2_bank_toNat (y : BitVec 3) : (y.extractLsb' 0 1).toNat = y.toNat % 2 := by
  rw [BitVec.extractLsb'_toNat, Nat.shiftRight_zero]

theorem cnt2_pos_toNat (y : BitVec 3) : (y.extractLsb' 1 2).toNat = y.toNat / 2 := by
  have hy := y.isLt
  rw [BitVec.extractLsb'_toNat, Nat.shiftRight_eq_div_pow]
  omega

/-! ### The front -/

theorem slotAt_eq_some_iff {y : BitVec 3} {x : BitVec 2} {k : Fin 24} :
    slotAt y x = some k ↔ x.toNat ≠ 3 ∧ k.val = 6 * (y.toNat / 2) + 3 * (y.toNat % 2) + x.toNat := by
  constructor
  · intro h
    obtain ⟨hx, hk⟩ := slotAt_some h
    exact ⟨hx.ne, hk⟩
  · rintro ⟨hx, hk⟩
    have hlt : x.toNat < 3 := by have := x.isLt; omega
    rw [slotAt, dif_pos hlt, Option.some_inj]
    exact Fin.ext hk.symm

theorem chanAt_eq_some_iff {y : BitVec 3} {x : BitVec 2} {c : Fin 6} :
    chanAt y x = some c ↔ x.toNat ≠ 3 ∧ c.val = 3 * (y.toNat % 2) + x.toNat := by
  unfold chanAt
  split
  · next hx => simp only [Option.some_inj, Fin.ext_iff, hx.ne, ne_eq, not_false_eq_true, true_and, eq_comm]
  · next hx =>
    have h3 : x.toNat = 3 := by have := x.isLt; omega
    simp [h3]

/-! ### The write pulse and the matches -/

theorem globalPulse_iff (r : Regs) : globalPulse r = true ↔ r.bus.wdEn = true ∧ r.bus.waEn = false := by
  rw [globalPulse, Bool.and_eq_true, Bool.not_eq_true']

theorem operatorMatch_iff (r : Regs) :
    operatorMatch r = true ↔
      r.bus.dataValid = true ∧ 0x30 ≤ r.bus.regAddr.toNat ∧ r.bus.regAddr.toNat ≤ 0x9F ∧ r.bus.regAddr.toNat % 4 ≠ 3
        ∧ r.bus.regAddr.toNat % 4 = r.scan.regCnt1.toNat ∧ r.bus.regBank.toNat = r.scan.regCnt2.toNat % 2
        ∧ r.bus.regAddr.toNat / 4 % 4 = r.scan.regCnt2.toNat / 2 := by
  simp only [operatorMatch, Bool.and_eq_true, decide_eq_true_eq, bne_iff_ne, beq_iff_eq, ne_eq, BitVec.toNat_eq,
    addr_cib_toNat, addr_pos_toNat, cib_gap_toNat, cnt2_bank_toNat, cnt2_pos_toNat, and_assoc]

theorem channelMatch_iff (r : Regs) :
    channelMatch r = true ↔
      r.bus.dataValid = true ∧ 0xA0 ≤ r.bus.regAddr.toNat ∧ r.bus.regAddr.toNat ≤ 0xB6 ∧ r.bus.regAddr.toNat % 4 ≠ 3
        ∧ r.bus.regAddr.toNat % 4 = r.scan.regCnt1.toNat ∧ r.bus.regBank.toNat = r.scan.regCnt2.toNat % 2 := by
  simp only [channelMatch, Bool.and_eq_true, decide_eq_true_eq, bne_iff_ne, beq_iff_eq, ne_eq, BitVec.toNat_eq,
    addr_cib_toNat, cib_gap_toNat, cnt2_bank_toNat, and_assoc]

/-- R147: the operator match waits for the slot the address names. -/
theorem frontSlot_of_operatorMatch {r : Regs} (h : operatorMatch r = true) :
    ∃ k : Fin 24, r.frontSlot = some k
      ∧ k.val = 6 * (r.bus.regAddr.toNat / 4 % 4) + (3 * r.bus.regBank.toNat + r.bus.regAddr.toNat % 4) := by
  obtain ⟨-, -, -, hgap, hcib, hbank, hpos⟩ := (operatorMatch_iff r).mp h
  have hb := r.bus.regBank.isLt
  refine ⟨⟨6 * (r.bus.regAddr.toNat / 4 % 4) + (3 * r.bus.regBank.toNat + r.bus.regAddr.toNat % 4), by omega⟩,
    slotAt_eq_some_iff.mpr ⟨hcib ▸ hgap, ?_⟩, rfl⟩
  dsimp only
  omega

/-- R147: the channel match waits for a slot of the channel the address names. -/
theorem frontChan_of_channelMatch {r : Regs} (h : channelMatch r = true) :
    ∃ c : Fin 6, r.frontChan = some c ∧ c.val = 3 * r.bus.regBank.toNat + r.bus.regAddr.toNat % 4 := by
  obtain ⟨-, -, -, hgap, hcib, hbank⟩ := (channelMatch_iff r).mp h
  have hb := r.bus.regBank.isLt
  refine ⟨⟨3 * r.bus.regBank.toNat + r.bus.regAddr.toNat % 4, by omega⟩,
    chanAt_eq_some_iff.mpr ⟨hcib ▸ hgap, ?_⟩, rfl⟩
  dsimp only
  omega

/-- Settles O7: the numbering is the definitions', each clause about the scan is one of the lemmas above. -/
theorem frontIsWriteTarget : Obligations.FrontIsWriteTarget := by
  intro r
  exact ⟨fun _ _ => rfl, fun _ => rfl, fun _ => slotAt_eq_some_iff, fun _ => chanAt_eq_some_iff, globalPulse_iff r,
    operatorMatch_iff r, channelMatch_iff r, frontSlot_of_operatorMatch, frontChan_of_channelMatch⟩

end Sys2Proof.Machine
end

section
/-! The invariant of the machine (`spec/10_state.md`): the reset values meet it, phase 1 of every pipeline keeps it, and so
does the step around them. Each pipeline has one lemma per register it bounds. -/

namespace Sys2Proof

/-! ### What a well-formed configuration gives -/

namespace Config

theorem fsmOk_of_wf {c : Config} (h : c.wf = true) : c.fsmOk = true := by
  simp only [wf, Bool.and_eq_true] at h
  obtain ⟨⟨⟨-, hfsm⟩, -⟩, -⟩ := h
  exact hfsm

theorem exprom_of_wf {c : Config} (h : c.wf = true) : tableOf 256 1024 c.exprom = true := by
  simp only [wf, tablesOk, Bool.and_eq_true] at h
  obtain ⟨⟨⟨-, -⟩, -, hexprom⟩, -⟩ := h
  exact hexprom

theorem egPrescale_of_wf {c : Config} (h : c.wf = true) : 1 ≤ c.egPrescale ∧ c.egPrescale ≤ 4 := by
  simp only [wf, periodsOk, Bool.and_eq_true, decide_eq_true_eq] at h
  obtain ⟨⟨⟨⟨⟨⟨-, hlow⟩, hhigh⟩, -⟩, -⟩, -⟩, -⟩ := h
  exact ⟨hlow, hhigh⟩

theorem dclkPeriod_pos_of_wf {c : Config} (h : c.wf = true) : 0 < c.dclkPeriod := by
  simp only [wf, periodsOk, Bool.and_eq_true, decide_eq_true_eq] at h
  obtain ⟨⟨⟨⟨⟨⟨⟨⟨-, hdclk⟩, -⟩, -⟩, -⟩, -⟩, -⟩, -⟩, -⟩ := h
  omega

theorem mono_wf : mono.wf = true := by decide +kernel

end Config

namespace Machine

/-! ### Signed values of a width -/

theorem signedIn_zero (w : Nat) : signedIn w 0 := by
  have h : (0 : Int) < 2 ^ (w - 1) := by positivity
  unfold signedIn
  omega

theorem signedIn_satS (w : Nat) (v : Int) : signedIn w (satS w v) := satS_bounds w v

theorem signedIn_toInt (w : Nat) (x : BitVec w) : signedIn w x.toInt := by
  have hlt := BitVec.toInt_lt (x := x)
  exact ⟨BitVec.le_toInt x, by omega⟩

/-- The override sample has 9 bits (R318). -/
theorem signedIn_dacs (g : GlobRegs) : signedIn 9 (dacs g) := by
  have hd := g.dacData.isLt
  have hb : bit (flag g.test2c 3) ≤ 1 := by unfold bit; split <;> omega
  simp only [signedIn, dacs, dac9]
  omega

/-- R297: the range of an operator output, `(0x3FF or 0x400) << 2` in magnitude; the invariant states it of `op_out` and
`op1_prev`. -/
abbrev InOutputRange (v : BitVec 14) : Prop := -8188 ≤ v.toInt ∧ v.toInt ≤ 8188

/-! ### Reset values -/

/-- What the reset forcing leaves meets the invariant, if the reset pairs and the counters do. -/
theorem reset_inv {c : Config} (hc : c.wf = true) {rst : RstRegs} {scan : ScanRegs} (hscan : scan.Locked)
    (hrst : rst.rstSr < 2 ^ c.resetDebounce) : Regs.Inv c { Regs.reset with rst := rst, scan := scan } where
  locked := hscan
  rstSr := hrst
  busy := Nat.zero_le _
  quot := (Config.egPrescale_of_wf hc).1
  shiftLock := rfl
  lowLock := rfl
  konCsm k := by simp [Regs.reset]
  opOut k := by simp [Regs.reset]
  op1Prev k := by simp [Regs.reset]
  chAcc k := by simp [Regs.reset, signedIn_zero]
  chOut k := by simp [Regs.reset, signedIn_zero]
  monoOut := signedIn_zero 9
  mixL := signedIn_zero _
  mixR := signedIn_zero _
  dacWord := Nat.two_pow_pos _

/-! ### The counters, the reset pairs, the busy countdown -/

/-- R202: the restart position is where the sequencer counter wraps by itself, so the two counters stay together. -/
theorem scanNext_locked {c : Config} (hc : c.fsmOk = true) {r : Regs} (h : r.scan.Locked) :
    (scanNext c (enables c r) r).Locked := by
  obtain ⟨h1, h2⟩ := h
  simp only [scanNext, ScanRegs.Locked, enables_restart hc, h1, h2]
  by_cases hq : r.q = 31
  · have hb1 := r.scan.fsmCnt1.isLt
    have hb2 := r.scan.fsmCnt2.isLt
    unfold Regs.q at hq
    have hc1 : r.scan.fsmCnt1 = 3 := BitVec.eq_of_toNat_eq (by simp; omega)
    have hc2 : r.scan.fsmCnt2 = 7 := BitVec.eq_of_toNat_eq (by simp; omega)
    simp [hc1, hc2, cnt1Next, cnt2Next]
  · simp [hq]

theorem rstNext_rstSr_lt (c : Config) (pin : Bool) (r : Regs) : (rstNext c pin r).rstSr < 2 ^ c.resetDebounce :=
  Nat.mod_lt _ (Nat.two_pow_pos _)

theorem busyNext_le {c : Config} {r : Regs} (h : r.bus.busyCnt ≤ c.busyLen) : busyNext c r ≤ c.busyLen := by
  unfold busyNext
  split
  · exact le_rfl
  · omega

/-! ### The envelope timer -/

/-- A visit of the envelope generator leaves the global timer as its own rule has it. -/
theorem egNext_global (c : Config) (e : FsmRec) (r : Regs) :
    (egNext c e r).quot = (egGlobalNext c e r.eg).quot ∧ (egNext c e r).timer = (egGlobalNext c e r.eg).timer
      ∧ (egNext c e r).shiftLock = (egGlobalNext c e r.eg).shiftLock
      ∧ (egNext c e r).lowLock = (egGlobalNext c e r.eg).lowLock := by
  unfold egNext
  split <;> exact ⟨rfl, rfl, rfl, rfl⟩

/-- R255: the locks change with the timer only, to those of its new value. -/
theorem egGlobalNext_locks (c : Config) (e : FsmRec) {g : EgRegs} (hs : g.shiftLock = egShiftLock g.timer)
    (hl : g.lowLock = egLowLock g.timer) :
    (egGlobalNext c e g).shiftLock = egShiftLock (egGlobalNext c e g).timer
      ∧ (egGlobalNext c e g).lowLock = egLowLock (egGlobalNext c e g).timer := by
  unfold egGlobalNext
  dsimp only
  split
  · split
    · exact ⟨rfl, rfl⟩
    · exact ⟨hs, hl⟩
  · exact ⟨hs, hl⟩

theorem egNext_quot_lt {c : Config} (hc : c.wf = true) (e : FsmRec) {r : Regs} (h : r.eg.quot.toNat < c.egPrescale) :
    (egNext c e r).quot.toNat < c.egPrescale := by
  obtain ⟨hlow, hhigh⟩ := Config.egPrescale_of_wf hc
  rw [(egNext_global c e r).1, egGlobalNext_quot hlow hhigh]
  split
  · exact Nat.mod_lt _ hlow
  · exact h

theorem egNext_locks (c : Config) (e : FsmRec) {r : Regs} (hs : r.eg.shiftLock = egShiftLock r.eg.timer)
    (hl : r.eg.lowLock = egLowLock r.eg.timer) :
    (egNext c e r).shiftLock = egShiftLock (egNext c e r).timer
      ∧ (egNext c e r).lowLock = egLowLock (egNext c e r).timer := by
  obtain ⟨-, htimer, hshift, hlow⟩ := egNext_global c e r
  rw [htimer, hshift, hlow]
  exact egGlobalNext_locks c e hs hl

/-! ### The key state -/

/-- R253: the CSM merge is 1 on slots of channel 2 only. -/
theorem chanOf_of_csmMerge {r : Regs} {s : Fin 24} (h : csmMerge r s = true) : (chanOf s).val = 2 := by
  simp only [csmMerge, Bool.and_eq_true, beq_iff_eq] at h
  exact h.2

theorem keyNext_konCsm (e : FsmRec) {r : Regs} (h : ∀ k : Fin 24, r.key.konCsm[k] = true → (chanOf k).val = 2) :
    ∀ k : Fin 24, (keyNext e r).konCsm[k] = true → (chanOf k).val = 2 := by
  unfold keyNext
  cases visited e r with
  | none => exact h
  | some s => exact setAt_forall (p := fun k b => b = true → (chanOf k).val = 2) h chanOf_of_csmMerge

/-! ### The operator network -/

theorem operatorOut_inOutputRange {c : Config} (hc : c.wf = true) (ph eg : BitVec 10) :
    InOutputRange (operatorOut c ph eg) := by
  have hmag := magnitude_le (Config.exprom_of_wf hc) (logSum c ph eg)
  rw [InOutputRange, operatorOut_toInt (Config.exprom_of_wf hc)]
  split <;> omega

theorem opNext_opOut {c : Config} (hc : c.wf = true) (e : FsmRec) {r : Regs}
    (h : ∀ k : Fin 24, InOutputRange r.op.opOut[k]) : ∀ k : Fin 24, InOutputRange (opNext c e r).opOut[k] := by
  unfold opNext
  split
  · exact h
  · exact setAt_forall (p := fun _ v => InOutputRange v) h (operatorOut_inOutputRange hc _ _)

/-- R298: the previous output is taken over from the outputs. -/
theorem opNext_op1Prev (c : Config) (e : FsmRec) {r : Regs}
    (ho : ∀ k : Fin 24, InOutputRange r.op.opOut[k]) (hp : ∀ k : Fin 6, InOutputRange r.op.op1Prev[k]) :
    ∀ k : Fin 6, InOutputRange (opNext c e r).op1Prev[k] := by
  unfold opNext
  split
  · exact hp
  · next s _ =>
    dsimp only
    split
    · exact setAt_forall (p := fun _ v => InOutputRange v) hp (ho s)
    · exact hp

/-! ### The accumulators and the output stage -/

theorem accNext_chAcc_eq (c : Config) (e : FsmRec) (r : Regs) : (accNext c e r).chAcc = (chAccNext c e r).1 := by
  unfold accNext
  dsimp only
  split <;> rfl

theorem accNext_chOut_eq (c : Config) (e : FsmRec) (r : Regs) : (accNext c e r).chOut = (chAccNext c e r).2 := by
  unfold accNext
  dsimp only
  split <;> rfl

/-- R312: every new sum is saturated. -/
theorem accNext_chAcc (c : Config) (e : FsmRec) {r : Regs} (h : ∀ k : Fin 6, signedIn c.accBits r.acc.chAcc[k]) :
    ∀ k : Fin 6, signedIn c.accBits (accNext c e r).chAcc[k] := by
  rw [accNext_chAcc_eq]
  unfold chAccNext
  split
  · exact h
  · dsimp only
    split
    · exact setAt_forall (p := fun _ v => signedIn c.accBits v) h (signedIn_satS _ _)
    · exact setAt_forall (p := fun _ v => signedIn c.accBits v) h (signedIn_satS _ _)

/-- R313: a finished sum is a running sum. -/
theorem accNext_chOut (c : Config) (e : FsmRec) {r : Regs} (ha : ∀ k : Fin 6, signedIn c.accBits r.acc.chAcc[k])
    (ho : ∀ k : Fin 6, signedIn c.accBits r.acc.chOut[k]) :
    ∀ k : Fin 6, signedIn c.accBits (accNext c e r).chOut[k] := by
  rw [accNext_chOut_eq]
  unfold chAccNext
  split
  · exact ho
  · next s _ =>
    dsimp only
    split
    · exact setAt_forall (p := fun _ v => signedIn c.accBits v) ho (ha (chanOf s))
    · exact ho

/-- R317: override, finished sum, free value and held sample all have 9 bits, where a finished sum has. -/
theorem monoOutNext_signedIn (e : FsmRec) {r : Regs} (ho : ∀ k : Fin 6, signedIn 9 r.acc.chOut[k])
    (hm : signedIn 9 r.acc.monoOut) : signedIn 9 (monoOutNext e r) := by
  unfold monoOutNext
  split
  · split
    · exact signedIn_dacs _
    · split
      · exact ho _
      · exact signedIn_toInt 9 _
  · exact hm

theorem accNext_monoOut (c : Config) (e : FsmRec) {r : Regs} (ho : ∀ k : Fin 6, signedIn c.accBits r.acc.chOut[k])
    (hm : signedIn 9 r.acc.monoOut) : signedIn 9 (accNext c e r).monoOut := by
  unfold accNext
  dsimp only
  split
  · next hv =>
    have hbits : c.accBits = 9 := by rw [Config.accBits, hv]
    exact monoOutNext_signedIn e (hbits ▸ ho) hm
  · exact hm

/-- R316: a side of the mix is held or saturated. -/
theorem mixNext_signedIn (c : Config) (e : FsmRec) {r : Regs} (hl : signedIn c.dacWordBits r.acc.mixL)
    (hr : signedIn c.dacWordBits r.acc.mixR) :
    signedIn c.dacWordBits (mixNext c e r).1 ∧ signedIn c.dacWordBits (mixNext c e r).2 := by
  unfold mixNext
  split
  · exact ⟨hl, hr⟩
  · split
    · exact ⟨signedIn_satS _ _, signedIn_satS _ _⟩
    · exact ⟨hl, hr⟩

theorem accNext_mix (c : Config) (e : FsmRec) {r : Regs} (hl : signedIn c.dacWordBits r.acc.mixL)
    (hr : signedIn c.dacWordBits r.acc.mixR) :
    signedIn c.dacWordBits (accNext c e r).mixL ∧ signedIn c.dacWordBits (accNext c e r).mixR := by
  unfold accNext
  dsimp only
  split
  · exact ⟨hl, hr⟩
  · exact mixNext_signedIn c e hl hr

theorem accNext_dacWord (c : Config) (e : FsmRec) {r : Regs} (h : r.acc.dacWord < 2 ^ (2 * c.dacWordBits)) :
    (accNext c e r).dacWord < 2 ^ (2 * c.dacWordBits) := by
  unfold accNext
  dsimp only
  split
  · exact h
  · dsimp only
    split
    · exact dacWordOf_lt _ _ _
    · exact h

/-! ### Phase 1 -/

/-- Phase 1 of every pipeline keeps the invariant of a half. -/
theorem phase1Regs_inv {s : State} (hc : s.cfg.wf = true) (h : s.cur.Inv s.cfg) : (phase1Regs s).Inv s.cfg where
  locked := scanNext_locked (Config.fsmOk_of_wf hc) h.locked
  rstSr := rstNext_rstSr_lt _ _ _
  busy := busyNext_le h.busy
  quot := egNext_quot_lt hc _ h.quot
  shiftLock := (egNext_locks _ _ h.shiftLock h.lowLock).1
  lowLock := (egNext_locks _ _ h.shiftLock h.lowLock).2
  konCsm := keyNext_konCsm _ h.konCsm
  opOut := opNext_opOut hc _ h.opOut
  op1Prev := opNext_op1Prev _ _ h.opOut h.op1Prev
  chAcc := accNext_chAcc _ _ h.chAcc
  chOut := accNext_chOut _ _ h.chAcc h.chOut
  monoOut := accNext_monoOut _ _ h.chOut h.monoOut
  mixL := (accNext_mix _ _ h.mixL h.mixR).1
  mixR := (accNext_mix _ _ h.mixL h.mixR).2
  dacWord := accNext_dacWord _ _ h.dacWord

/-- The invariant says nothing of the register files, so a register write keeps it. -/
theorem Regs.Inv.of_write {c : Config} {r : Regs} (h : r.Inv c) (g : GlobRegs) (sl : SlotRegs) (ch : ChanRegs) :
    Regs.Inv c { r with glob := g, slot := sl, chan := ch } :=
  ⟨h.locked, h.rstSr, h.busy, h.quot, h.shiftLock, h.lowLock, h.konCsm, h.opOut, h.op1Prev, h.chAcc, h.chOut,
    h.monoOut, h.mixL, h.mixR, h.dacWord⟩

namespace State

theorem written_nxt_inv {s : State} (hc : s.cfg.wf = true) (h : s.cur.Inv s.cfg) : s.written.nxt.Inv s.cfg := by
  obtain ⟨g, sl, ch, e⟩ := s.written_eq
  rw [e]
  exact (phase1Regs_inv hc h).of_write g sl ch

theorem forceReset_nxt_inv {s : State} (hc : s.cfg.wf = true) (h : s.nxt.Inv s.cfg) :
    s.forceReset.nxt.Inv s.cfg := by
  cases hi : s.cur.rst.ic with
  | false => rwa [forceReset_of_not hi]
  | true =>
    rw [forceReset_nxt_of_ic hi]
    exact reset_inv hc h.locked h.rstSr

/-- The `next` halves after phase 1, if it occurs, meet the invariant. -/
theorem afterTick_nxt_inv {s : State} (h : s.Inv) : s.afterTick.nxt.Inv s.cfg := by
  cases ht : s.tickStarts with
  | false =>
    rw [afterTick_nxt_of_not ht]
    exact h.nxt
  | true =>
    have hcfg : s.afterBus.written.cfg = s.cfg := by rw [written_cfg, afterBus_cfg]
    have hw := written_nxt_inv (s := s.afterBus) (by rw [afterBus_cfg]; exact h.cfg)
      (by rw [afterBus_cfg, afterBus_cur]; exact h.cur)
    rw [afterBus_cfg, ← hcfg] at hw
    rw [afterTick_nxt_of_tick ht, ← hcfg]
    exact forceReset_nxt_inv (hcfg ▸ h.cfg) hw

theorem stepTo_cur_inv {s : State} (h : s.Inv) : s.stepTo.cur.Inv s.cfg := by
  rw [stepTo_cur]
  split
  · exact afterTick_nxt_inv h
  · exact h.cur

/-! ### The raw latches -/

theorem stepTo_prescCnt_lt {s : State} (h : s.Inv) : s.stepTo.raw.prescCnt < s.cfg.prescPeriod := by
  rw [stepTo_prescCnt]
  split
  · exact Nat.mod_lt _ (by have := two_le_prescPeriod h.cfg; omega)
  · exact h.presc

theorem stepTo_dclkCnt_lt {s : State} (h : s.Inv) : s.stepTo.raw.dclkCnt < s.cfg.dclkPeriod := by
  rw [stepTo_dclkCnt]
  split
  · exact Nat.mod_lt _ (Config.dclkPeriod_pos_of_wf h.cfg)
  · exact h.dclk

theorem serialWord_lt {c : Config} (e : FsmRec) {r : Regs} (h : r.acc.dacWord < 2 ^ (2 * c.dacWordBits)) (sr : Nat) :
    serialWord c e r sr < 2 ^ (2 * c.dacWordBits) := by
  unfold serialWord
  split
  · exact h
  · exact Nat.mod_lt _ (Nat.two_pow_pos _)

/-- R321: the shift register is forced to 0, loaded, shifted or held. -/
theorem serialize_dacSr_lt {s : State} (hword : s.cur.acc.dacWord < 2 ^ (2 * s.cfg.dacWordBits))
    (hsr : s.raw.dacSr < 2 ^ (2 * s.cfg.dacWordBits)) (inReset d1 d2 : Bool) :
    (s.serialize inReset d1 d2).raw.dacSr < 2 ^ (2 * s.cfg.dacWordBits) := by
  unfold serialize
  split
  · exact Nat.two_pow_pos _
  · split
    · exact serialWord_lt _ hword _
    · split
      · exact hsr
      · exact hsr

/-- The serializer of a sample reads the word after the commit (log entry 8). -/
theorem finish_dacSr_lt {s : State} (hword : s.finish.cur.acc.dacWord < 2 ^ (2 * s.cfg.dacWordBits))
    (hsr : s.raw.dacSr < 2 ^ (2 * s.cfg.dacWordBits)) : s.finish.raw.dacSr < 2 ^ (2 * s.cfg.dacWordBits) := by
  rw [finish_cur] at hword
  unfold finish
  rw [drive_raw, advanceClocks_dacSr]
  split
  · next he =>
    rw [if_pos he] at hword
    exact serialize_dacSr_lt (s := s.commit) hword hsr _ _ _
  · next he =>
    rw [if_neg he] at hword
    exact serialize_dacSr_lt hword hsr _ _ _

theorem stepTo_dacSr_lt {s : State} (h : s.Inv) : s.stepTo.raw.dacSr < 2 ^ (2 * s.cfg.dacWordBits) := by
  have hword : s.stepTo.cur.acc.dacWord < 2 ^ (2 * s.cfg.dacWordBits) := (stepTo_cur_inv h).dacWord
  have hsr : s.afterTick.raw.dacSr < 2 ^ (2 * s.cfg.dacWordBits) := by rw [afterTick_dacSr]; exact h.dacSr
  rw [← afterTick_cfg s] at hword hsr ⊢
  exact finish_dacSr_lt hword hsr

/-- R104: a tick is the span from `presc_cnt = 0` to the commit at half the period; a step that ends outside it either
commits or starts outside it and changes no pair. -/
theorem stepTo_settled {s : State} (h : s.Inv)
    (hout : s.stepTo.raw.prescCnt = 0 ∨ s.cfg.prescPeriod / 2 < s.stepTo.raw.prescCnt) :
    s.stepTo.nxt = s.stepTo.cur := by
  have hperiod := two_le_prescPeriod h.cfg
  have hlt := h.presc
  cases he : s.tickEnds with
  | true =>
    rw [stepTo_cur_of_tickEnds h.cfg he, stepTo_nxt_of_not (tickStarts_eq_false_of_tickEnds h.cfg he)]
  | false =>
    rw [stepTo_cur_of_not he]
    rw [stepTo_prescCnt] at hout
    cases hr : s.rises with
    | false =>
      have hs : s.tickStarts = false := Bool.eq_false_iff.mpr fun hs => by simp [s.tickStarts_iff, hr] at hs
      rw [stepTo_nxt_of_not hs]
      exact h.settled (by simpa [hr] using hout)
    | true =>
      rw [if_pos hr] at hout
      have hne : s.raw.prescCnt ≠ s.cfg.prescPeriod / 2 := fun e => by
        rw [s.tickEnds_iff.mpr ⟨hr, e⟩] at he
        cases he
      have hbeyond : s.cfg.prescPeriod / 2 < s.raw.prescCnt := by
        by_cases hwrap : s.raw.prescCnt + 1 = s.cfg.prescPeriod
        · omega
        · rw [Nat.mod_eq_of_lt (by omega)] at hout
          omega
      have hs : s.tickStarts = false := Bool.eq_false_iff.mpr fun hs => by
        obtain ⟨-, h0⟩ := s.tickStarts_iff.mp hs
        omega
      rw [stepTo_nxt_of_not hs]
      exact h.settled (.inr hbeyond)

theorem stepTo_inv {s : State} (h : s.Inv) : s.stepTo.Inv where
  cfg := by rw [stepTo_cfg]; exact h.cfg
  presc := by rw [stepTo_cfg]; exact stepTo_prescCnt_lt h
  dclk := by rw [stepTo_cfg]; exact stepTo_dclkCnt_lt h
  dacSr := by rw [stepTo_cfg]; exact stepTo_dacSr_lt h
  cur := by rw [stepTo_cfg]; exact stepTo_cur_inv h
  nxt := by rw [stepTo_cfg, stepTo_nxt]; exact afterTick_nxt_inv h
  settled := by rw [stepTo_cfg]; exact stepTo_settled h

/-- The created state of a well-formed configuration meets the invariant. -/
theorem created_inv {c : Config} (hc : c.wf = true) : (State.created c).Inv where
  cfg := hc
  presc := Nat.lt_of_lt_of_le Nat.two_pos (two_le_prescPeriod hc)
  dclk := Config.dclkPeriod_pos_of_wf hc
  dacSr := Nat.two_pow_pos _
  cur := reset_inv hc ⟨rfl, rfl⟩ (Nat.two_pow_pos _)
  nxt := reset_inv hc ⟨rfl, rfl⟩ (Nat.two_pow_pos _)
  settled _ := rfl

end State

/-- Settles O29: every step answers `stepTo`, which keeps the invariant field by field. -/
theorem stepKeepsInvariant : Obligations.StepKeepsInvariant := by
  intro s t hinv hstep
  rw [State.step_eq] at hstep
  cases hstep
  exact State.stepTo_inv hinv

/-- Settles O28, from the created state of any well-formed configuration. -/
theorem resetMeetsInvariant : Obligations.ResetMeetsInvariant := State.created_inv Config.mono_wf

/-- The output record the created state carries is the one its reset registers drive, in either variant. -/
theorem created_audio (c : Config) : (State.created c).out.audio = (State.created c).audio := by
  obtain ⟨_ | _, _⟩ := c
  case mono => rfl
  case stereo => rfl

/-- Settles O27: every clause but the variant's sample outputs is a field of the created state as it is written. -/
theorem createdStateIsIdle : Obligations.CreatedStateIsIdle := by
  intro c
  have hstatus : Regs.reset.status = 0 := by decide
  exact ⟨rfl, rfl, rfl, rfl, rfl, rfl, rfl, rfl, ⟨rfl, rfl, rfl, rfl, rfl⟩, rfl, rfl, rfl, hstatus, rfl, rfl,
    created_audio c⟩

end Machine

end Sys2Proof
end

section
/-! Reads (`spec/20_memory.md` R67): the strobes a pin word raises, the part of a state the host's read reaches, and the data
outputs of a step from the state it leaves. -/

namespace Sys2Proof

/-! ### The pin word by its fields (`spec/30_encoding.md` R81) -/

theorem busWord_cs (cs rd wr : Bool) (a : BitVec 2) : (busWord cs rd wr a)[4] = cs := by
  revert cs rd wr a; decide

theorem busWord_rd (cs rd wr : Bool) (a : BitVec 2) : (busWord cs rd wr a)[3] = rd := by
  revert cs rd wr a; decide

theorem busWord_wr (cs rd wr : Bool) (a : BitVec 2) : (busWord cs rd wr a)[2] = wr := by
  revert cs rd wr a; decide

theorem busWord_a0 (cs rd wr : Bool) (a : BitVec 2) : (busWord cs rd wr a)[0] = a[0] := by
  revert cs rd wr a; decide

theorem busWord_a1 (cs rd wr : Bool) (a : BitVec 2) :
    (busWord cs rd wr a).extractLsb' 1 1 = a.extractLsb' 1 1 := by
  revert cs rd wr a; decide

theorem busWord_address (cs rd wr : Bool) (a : BitVec 2) : (busWord cs rd wr a).extractLsb' 0 2 = a := by
  revert cs rd wr a; decide

/-- R81 on the pins themselves. -/
theorem decodeBus_busWord (cs rd wr : Bool) (a : BitVec 2) (d : Byte) :
    decodeBus (busWord cs rd wr a) d =
      if cs then
        if wr then
          if a[0] then .wdata rd (a.extractLsb' 1 1) d else .waddr rd (a.extractLsb' 1 1) d
        else if rd then if a = 0 then .rstat else .rfloat a
        else .idle (busWord cs rd wr a)
      else .idle (busWord cs rd wr a) := by
  simp only [decodeBus, busWord_cs, busWord_rd, busWord_wr, busWord_a0, busWord_a1, busWord_address]

namespace Machine

namespace State

/-! ### The write strobes of the pins (`spec/41_bus_front_end.md` R121) -/

/-- `io_wa`. -/
def ioWa (s : State) : Bool := s.pins.cs && s.pins.wr && !s.pins.address[0]

/-- `io_wd`. -/
def ioWd (s : State) : Bool := s.pins.cs && s.pins.wr && s.pins.address[0]

/-- What the bus operation on the pins does, the data outputs apart, depends on the write strobes and not on the read
strobe. -/
theorem execTo_busOp (s : State) :
    ∃ o, execTo s.busOp s
      = { s.pinSide s.ioWa s.ioWd (s.pins.address.extractLsb' 1 1) s.pins.data with out := o } := by
  rw [busOp, decodeBus_busWord, ioWa, ioWd]
  cases s.pins.cs with
  | false => exact ⟨_, rfl⟩
  | true =>
    cases s.pins.wr with
    | true => cases s.pins.address[0] <;> exact ⟨_, rfl⟩
    | false =>
      cases s.pins.rd with
      | false => exact ⟨_, rfl⟩
      | true =>
        simp only [Bool.false_eq_true, if_true, if_false]
        split <;> exact ⟨_, rfl⟩

/-! ### The part of a state a read reaches -/

/-- The state with another `read_enable` pin and another output record. -/
def withRead (s : State) (rd : Bool) (o : Out) : State := { s with pins := { s.pins with rd := rd }, out := o }

theorem execTo_busOp_withRead (s : State) (rd : Bool) (o : Out) :
    ∃ o', execTo (s.withRead rd o).busOp (s.withRead rd o) = (execTo s.busOp s).withRead rd o' := by
  obtain ⟨_, h⟩ := s.execTo_busOp
  obtain ⟨o', h'⟩ := (s.withRead rd o).execTo_busOp
  rw [h, h']
  exact ⟨o', rfl⟩

theorem writeSlot_withRead (s : State) (rd : Bool) (o : Out) (k : Option (Fin 24)) (f : Fin 24 → SlotRegs → SlotRegs) :
    (s.withRead rd o).writeSlot k f = (s.writeSlot k f).withRead rd o := by
  cases k <;> rfl

theorem writeChan_withRead {n : Nat} (s : State) (rd : Bool) (o : Out) (k : Option (Fin n))
    (f : Fin n → ChanRegs → ChanRegs) : (s.withRead rd o).writeChan k f = (s.writeChan k f).withRead rd o := by
  cases k <;> rfl

theorem execTo_write_withRead {i : Instr} (h : i.isBus = false) (s : State) (rd : Bool) (o : Out) :
    execTo i (s.withRead rd o) = (execTo i s).withRead rd o := by
  cases i
  case idle | waddr | wdata | rstat | rfloat => cases h
  case dtMul | tl | ksAr | amDr | sr | slRr | ssgeg =>
    exact (execTo_next rfl).trans (writeSlot_withRead s rd o _ _)
  case fnumLo | fnumHi | fnum3Lo | fnum3Hi | fbAlg | panLfo =>
    exact (execTo_next rfl).trans (writeChan_withRead s rd o _ _)
  all_goals rfl

theorem written_withRead (s : State) (rd : Bool) (o : Out) : (s.withRead rd o).written = s.written.withRead rd o := by
  have hpending : (s.withRead rd o).pendingWrite = s.pendingWrite := rfl
  unfold written
  rw [hpending]
  split
  · next i h => exact execTo_write_withRead (pendingWrite_isBus h) s.phase1 rd o
  · rfl

theorem forceReset_withRead (s : State) (rd : Bool) (o : Out) :
    (s.withRead rd o).forceReset = s.forceReset.withRead rd o := by
  cases h : s.cur.rst.ic with
  | false => rw [forceReset_of_not h, forceReset_of_not (s := s.withRead rd o) h]
  | true => rw [forceReset, forceReset, if_pos h, if_pos (show (s.withRead rd o).cur.rst.ic = true from h)]; rfl

theorem serialize_withRead (s : State) (rd : Bool) (o : Out) (inReset d1 d2 : Bool) :
    (s.withRead rd o).serialize inReset d1 d2 = (s.serialize inReset d1 d2).withRead rd o := by
  unfold serialize
  split
  · rfl
  · split
    · rfl
    · split <;> rfl

theorem advanceClocks_withRead (s : State) (rd : Bool) (o : Out) :
    (s.withRead rd o).advanceClocks = s.advanceClocks.withRead rd o := by
  have hrise : (s.withRead rd o).rise = s.rise := rfl
  unfold advanceClocks
  rw [hrise]
  split <;> rfl

/-- The output record shows the read in its data outputs only. -/
theorem drive_withRead (s : State) (rd : Bool) (o : Out) :
    ∃ o', (s.withRead rd o).drive = s.drive.withRead rd o' ∧ o'.audio = s.drive.out.audio :=
  ⟨_, rfl, rfl⟩

theorem finish_withRead (s : State) (rd : Bool) (o : Out) :
    ∃ o', (s.withRead rd o).finish = s.finish.withRead rd o' ∧ o'.audio = s.finish.out.audio := by
  have hcommit : (if (s.withRead rd o).phase2Event then (s.withRead rd o).commit else s.withRead rd o)
      = (if s.phase2Event then s.commit else s).withRead rd o := by
    have hevent : (s.withRead rd o).phase2Event = s.phase2Event := rfl
    rw [hevent]
    split <;> rfl
  unfold finish
  dsimp only
  rw [hcommit, serialize_withRead, advanceClocks_withRead]
  exact drive_withRead _ rd o

theorem afterBus_read (s : State) (p : Pins) (rd : Bool) :
    ∃ o, afterBus { s with host := { p with rd := rd } :: s.host }
      = (afterBus { s with host := p :: s.host }).withRead rd o :=
  execTo_busOp_withRead (sampled { s with host := p :: s.host }) rd s.out

theorem afterTick_read (s : State) (p : Pins) (rd : Bool) :
    ∃ o, afterTick { s with host := { p with rd := rd } :: s.host }
      = (afterTick { s with host := p :: s.host }).withRead rd o := by
  obtain ⟨o, hbus⟩ := afterBus_read s p rd
  have htick : tickStarts { s with host := { p with rd := rd } :: s.host }
      = tickStarts { s with host := p :: s.host } := rfl
  refine ⟨o, ?_⟩
  rw [afterTick, afterTick, htick, hbus, written_withRead, forceReset_withRead]
  split <;> rfl

/-- R67: the host's read reaches the `read_enable` pin and the data outputs of the state a step leaves. -/
theorem stepTo_read (s : State) (p : Pins) (rd : Bool) :
    ∃ o, stepTo { s with host := { p with rd := rd } :: s.host }
        = (stepTo { s with host := p :: s.host }).withRead rd o
      ∧ o.audio = (stepTo { s with host := p :: s.host }).out.audio := by
  obtain ⟨o, htick⟩ := afterTick_read s p rd
  rw [stepTo, htick]
  exact finish_withRead _ rd o

/-! ### The data outputs of a step, from the state it leaves (R131) -/

theorem drive_dataOut (s : State) : s.drive.out.dataOut = (s.drive.busRead s.drive.ioRd s.drive.pins.address).1 := rfl

theorem drive_dataOutEn (s : State) : s.drive.out.dataOutEn = (s.drive.busRead s.drive.ioRd s.drive.pins.address).2 := rfl

theorem stepTo_ioRd (s : State) : s.stepTo.ioRd = (s.nextPins.cs && s.nextPins.rd) := by rw [ioRd, stepTo_pins]

theorem stepTo_dataOut (s : State) :
    s.stepTo.out.dataOut = (s.stepTo.busRead (s.nextPins.cs && s.nextPins.rd) s.nextPins.address).1 := by
  rw [← stepTo_ioRd, ← stepTo_pins]
  exact drive_dataOut _

theorem stepTo_dataOutEn (s : State) :
    s.stepTo.out.dataOutEn = (s.stepTo.busRead (s.nextPins.cs && s.nextPins.rd) s.nextPins.address).2 := by
  rw [← stepTo_ioRd, ← stepTo_pins]
  exact drive_dataOutEn _

/-- A read depends on the configuration, the `cur` halves and the internal bus. -/
theorem busRead_congr {s t : State} (hcfg : s.cfg = t.cfg) (hcur : s.cur = t.cur) (hbus : s.bus = t.bus) (r : Bool)
    (a : BitVec 2) : s.busRead r a = t.busRead r a := by
  simp only [busRead, statusByte, floatByte, hcfg, hcur, hbus]

/-! ### The internal bus without a write (R126) -/

/-- Out of reset the data latch holds without a write strobe. -/
theorem pinSide_dataLatch_of_no_write (s : State) (bank : BitVec 1) (d : Byte) (h : s.cur.rst.ic = false) :
    (s.pinSide false false bank d).raw.dataLatch = s.raw.dataLatch := by
  rw [pinSide, h]
  rfl

theorem stepTo_dataLatch (s : State) : s.stepTo.raw.dataLatch = s.afterBus.raw.dataLatch := by
  rw [stepTo, finish_dataLatch, afterTick]
  split
  · rw [forceReset_raw, written_raw, phase1_dataLatch]
  · rfl

theorem stepTo_dataLatch_of_no_write {s : State} (hwr : s.nextPins.wr = false) (hic : s.cur.rst.ic = false) :
    s.stepTo.raw.dataLatch = s.raw.dataLatch := by
  have hwa : s.sampled.ioWa = false := by simp [ioWa, hwr]
  have hwd : s.sampled.ioWd = false := by simp [ioWd, hwr]
  obtain ⟨o, h⟩ := s.sampled.execTo_busOp
  rw [hwa, hwd] at h
  rw [stepTo_dataLatch, afterBus, h]
  exact pinSide_dataLatch_of_no_write s.sampled _ _ hic

/-- The internal bus shows one byte before and after a sample without a write in which no tick ends. -/
theorem stepTo_bus_of_no_write {s : State} (hwr : s.nextPins.wr = false) (hend : s.tickEnds = false) :
    s.stepTo.bus = s.bus := by
  rw [bus, bus, stepTo_cur_of_not hend]
  cases hic : s.cur.rst.ic with
  | true => rfl
  | false => exact stepTo_dataLatch_of_no_write hwr hic

/-- A read of a sample without a write in which no tick ends answers what the state before the sample holds. -/
theorem stepTo_busRead_of_no_write {s : State} (hwr : s.nextPins.wr = false) (hend : s.tickEnds = false) (r : Bool)
    (a : BitVec 2) : s.stepTo.busRead r a = s.busRead r a :=
  busRead_congr s.stepTo_cfg (stepTo_cur_of_not hend) (stepTo_bus_of_no_write hwr hend) r a

/-- R67: the second of two samples with one read strobe and one address repeats the data outputs of the first, if it has no
write and no tick ends in it. -/
theorem stepTo_stepTo_data {s : State}
    (hrd : (s.stepTo.nextPins.cs && s.stepTo.nextPins.rd) = (s.nextPins.cs && s.nextPins.rd))
    (haddr : s.stepTo.nextPins.address = s.nextPins.address) (hwr : s.stepTo.nextPins.wr = false)
    (hend : s.stepTo.tickEnds = false) :
    s.stepTo.stepTo.out.dataOut = s.stepTo.out.dataOut ∧ s.stepTo.stepTo.out.dataOutEn = s.stepTo.out.dataOutEn := by
  rw [stepTo_dataOut s.stepTo, stepTo_dataOutEn s.stepTo, hrd, haddr, stepTo_busRead_of_no_write hwr hend,
    stepTo_dataOut s, stepTo_dataOutEn s]
  exact ⟨rfl, rfl⟩

/-- The step takes the first record the host drives and leaves the second to the next one. -/
theorem stepTo_nextPins_of_host (s : State) (p q : Pins) (l : List Pins) :
    (stepTo { s with host := p :: q :: l }).nextPins = q := by
  rw [nextPins, stepTo_host]
  rfl

end State

/-- Settles O33: a step with another `read_enable` is the step up to `State.withRead`, and the second read sees the `cur`
halves and the internal bus that the first one saw. -/
theorem readsHaveNoSideEffect : Obligations.ReadsHaveNoSideEffect := by
  refine ⟨fun s p b => ?_, fun s p q hpcs hprd hqcs hqrd hqwr haddr => ?_⟩
  · obtain ⟨o, hread, haudio⟩ := State.stepTo_read s p b
    refine ⟨_, _, State.step_eq _, State.step_eq _, ?_⟩
    rw [hread]
    exact ⟨rfl, rfl, rfl, rfl, rfl, haudio⟩
  · have hq := State.stepTo_nextPins_of_host s p q s.host
    refine ⟨_, _, State.step_eq _, State.step_eq _, State.stepTo_stepTo_data ?_ ?_ ?_⟩
    · rw [hq, hqcs, hqrd, State.nextPins, hpcs, hprd]
    · rw [hq, haddr, State.nextPins]
    · rw [hq, hqwr]

end Machine

end Sys2Proof
end

section
/-! The encoding (`spec/30_encoding.md` R80 to R90): the words by their fields, the register decoder by the ranges of R85, and
decoding and encoding as inverses of each other. -/

namespace Sys2Proof

/-! ### The register word and the address byte by their fields (R82, R83) -/

@[simp] theorem regWord_bank (bank : BitVec 1) (addr : Byte) : (regWord bank addr).extractLsb' 8 1 = bank :=
  BitVec.extractLsb'_append_eq_left

@[simp] theorem regWord_addr (bank : BitVec 1) (addr : Byte) : (regWord bank addr).extractLsb' 0 8 = addr :=
  BitVec.extractLsb'_append_eq_right

theorem regWord_fields (w : BitVec 9) : regWord (w.extractLsb' 8 1) (w.extractLsb' 0 8) = w :=
  (BitVec.extractLsb'_append_extractLsb'_eq_extractLsb' (x := w) rfl).trans BitVec.extractLsb'_eq_self

theorem fieldAddr_toNat (grp : BitVec 4) (sub cib : BitVec 2) :
    (fieldAddr grp sub cib).toNat = 16 * grp.toNat + 4 * sub.toNat + cib.toNat := by
  rw [fieldAddr, BitVec.toNat_append, BitVec.toNat_append, ← Nat.shiftLeft_add_eq_or_of_lt cib.isLt,
    ← Nat.shiftLeft_add_eq_or_of_lt (by omega), Nat.shiftLeft_eq, Nat.shiftLeft_eq]
  omega

@[simp] theorem fieldAddr_cib (grp : BitVec 4) (sub cib : BitVec 2) : (fieldAddr grp sub cib).extractLsb' 0 2 = cib := by
  apply BitVec.eq_of_toNat_eq
  rw [Machine.addr_cib_toNat, fieldAddr_toNat]
  omega

@[simp] theorem fieldAddr_sub (grp : BitVec 4) (sub cib : BitVec 2) : (fieldAddr grp sub cib).extractLsb' 2 2 = sub := by
  apply BitVec.eq_of_toNat_eq
  rw [Machine.addr_pos_toNat, fieldAddr_toNat]
  omega

/-- The group of R83 is the upper half of the address byte. -/
theorem fieldAddr_div_16 (grp : BitVec 4) (sub cib : BitVec 2) : (fieldAddr grp sub cib).toNat / 16 = grp.toNat := by
  rw [fieldAddr_toNat]
  omega

/-- `addr[7:2]` is the group and `sub` of R83. -/
theorem fieldAddr_div_4 (grp : BitVec 4) (sub cib : BitVec 2) :
    (fieldAddr grp sub cib).toNat / 4 = 4 * grp.toNat + sub.toNat := by
  rw [fieldAddr_toNat]
  omega

/-- An address byte of group `grp` is put together from its fields again. -/
theorem fieldAddr_of_div_16 {addr : Byte} {grp : BitVec 4} (h : addr.toNat / 16 = grp.toNat) :
    fieldAddr grp (addr.extractLsb' 2 2) (addr.extractLsb' 0 2) = addr := by
  apply BitVec.eq_of_toNat_eq
  rw [fieldAddr_toNat, Machine.addr_pos_toNat, Machine.addr_cib_toNat]
  omega

theorem fieldAddr_of_div_4 {addr : Byte} {grp : BitVec 4} {sub : BitVec 2}
    (h : addr.toNat / 4 = 4 * grp.toNat + sub.toNat) : fieldAddr grp sub (addr.extractLsb' 0 2) = addr := by
  apply BitVec.eq_of_toNat_eq
  rw [fieldAddr_toNat, Machine.addr_cib_toNat]
  omega

theorem cib_ne_gap_iff (cib : BitVec 2) : cib ≠ 3 ↔ cib.toNat ≠ 3 := by
  rw [ne_eq, BitVec.toNat_eq, Machine.cib_gap_toNat]

/-- R83: the address of a term that selects no gap does not end in 3. -/
theorem fieldAddr_mod_4_ne {cib : BitVec 2} (h : cib ≠ 3) (grp : BitVec 4) (sub : BitVec 2) :
    (fieldAddr grp sub cib).toNat % 4 ≠ 3 := by
  rw [cib_ne_gap_iff] at h
  rw [fieldAddr_toNat]
  omega

theorem addr_cib_ne_gap {addr : Byte} (h : addr.toNat % 4 ≠ 3) : (addr.extractLsb' 0 2 != (3 : BitVec 2)) = true := by
  rwa [bne_iff_ne, cib_ne_gap_iff, Machine.addr_cib_toNat]

theorem reservedAddr_iff (bank : BitVec 1) (addr : Byte) :
    reservedAddr bank addr = true ↔
      addr.toNat ≤ 0x20 ∨ (0x2D ≤ addr.toNat ∧ addr.toNat ≤ 0x2F)
        ∨ (0x21 ≤ addr.toNat ∧ addr.toNat ≤ 0x2C ∧ bank = 1) ∨ (0x30 ≤ addr.toNat ∧ addr.toNat ≤ 0xB6 ∧ addr.toNat % 4 = 3)
        ∨ (0xA8 ≤ addr.toNat ∧ addr.toNat ≤ 0xAE ∧ bank = 1) ∨ 0xB7 ≤ addr.toNat := by
  simp only [reservedAddr, Bool.or_eq_true, Bool.and_eq_true, decide_eq_true_eq, beq_iff_eq, or_assoc, and_assoc]

/-! ### The register decoder, one equation per range (R85) -/

theorem decodeReg_regWord (bank : BitVec 1) (addr d : Byte) :
    decodeReg (regWord bank addr) d =
      if 0x21 ≤ addr.toNat ∧ addr.toNat ≤ 0x2C ∧ bank = 0 then decodeGlobal addr d
      else if 0x30 ≤ addr.toNat ∧ addr.toNat ≤ 0x9F ∧ addr.toNat % 4 ≠ 3 then decodeSlot bank addr d
      else if 0xA0 ≤ addr.toNat ∧ addr.toNat ≤ 0xB6 ∧ addr.toNat % 4 ≠ 3 then decodeChan bank addr d
      else .reserved bank addr d := by
  rw [decodeReg, regWord_bank, regWord_addr]

/-- R87: an address of groups 3 to 9 that is no gap goes to the slot registers. -/
theorem decodeReg_slotAddr {grp : BitVec 4} {cib : BitVec 2} (bank : BitVec 1) (sub : BitVec 2) (d : Byte)
    (hgrp : 3 ≤ grp.toNat ∧ grp.toNat ≤ 9) (hcib : cib ≠ 3) :
    decodeReg (regWord bank (fieldAddr grp sub cib)) d = decodeSlot bank (fieldAddr grp sub cib) d := by
  have haddr := fieldAddr_div_16 grp sub cib
  rw [decodeReg_regWord, if_neg (by omega), if_pos ⟨by omega, by omega, fieldAddr_mod_4_ne hcib grp sub⟩]

/-- R88: an address 0xA0 to 0xB6 that is no gap goes to the channel registers. -/
theorem decodeReg_chanAddr {grp : BitVec 4} {sub cib : BitVec 2} (bank : BitVec 1) (d : Byte)
    (hgrp : 0x28 ≤ 4 * grp.toNat + sub.toNat ∧ 4 * grp.toNat + sub.toNat ≤ 0x2D) (hcib : cib ≠ 3) :
    decodeReg (regWord bank (fieldAddr grp sub cib)) d = decodeChan bank (fieldAddr grp sub cib) d := by
  have haddr := fieldAddr_div_4 grp sub cib
  have hgap := fieldAddr_mod_4_ne hcib grp sub
  rw [decodeReg_regWord, if_neg (by omega), if_neg (by omega), if_pos ⟨by omega, by omega, hgap⟩]

/-- R88: the special-channel addresses exist in bank 0 only. -/
theorem decodeChan_special_bank1 {addr : Byte} (h : 0xA8 ≤ addr.toNat ∧ addr.toNat ≤ 0xAE) (d : Byte) :
    decodeChan 1 addr d = .reserved 1 addr d := by
  have hq : addr.toNat / 4 = 0x2A ∨ addr.toNat / 4 = 0x2B := by omega
  rcases hq with hq | hq <;> simp [decodeChan, hq]

/-- R89: a reserved address is in no range of R85, or it names a special-channel register in bank 1. -/
theorem decodeReg_reservedAddr {bank : BitVec 1} {addr : Byte} (h : reservedAddr bank addr = true) (d : Byte) :
    decodeReg (regWord bank addr) d = .reserved bank addr d := by
  rw [reservedAddr_iff] at h
  rw [decodeReg_regWord, if_neg (by bv_omega), if_neg (by omega)]
  split
  · next hchan =>
    have hbank : bank = 1 := by bv_omega
    subst hbank
    exact decodeChan_special_bank1 (by omega) d
  · rfl

/-! ### Every word decodes to a well-formed instruction -/

theorem decodeGlobal_wf {addr : Byte} (h : 0x21 ≤ addr.toNat ∧ addr.toNat ≤ 0x2C) (d : Byte) :
    (decodeGlobal addr d).wf = true := by
  unfold decodeGlobal
  split
  case h_13 => grind
  all_goals rfl

theorem decodeSlot_wf {addr : Byte} (h : 0x30 ≤ addr.toNat ∧ addr.toNat ≤ 0x9F ∧ addr.toNat % 4 ≠ 3)
    (bank : BitVec 1) (d : Byte) : (decodeSlot bank addr d).wf = true := by
  obtain ⟨hlo, hhi, hgap⟩ := h
  have hcib := addr_cib_ne_gap hgap
  unfold decodeSlot
  dsimp only
  split
  case h_8 => grind
  all_goals exact hcib

theorem decodeChan_wf {addr : Byte} (h : 0xA0 ≤ addr.toNat ∧ addr.toNat ≤ 0xB6 ∧ addr.toNat % 4 ≠ 3)
    (bank : BitVec 1) (d : Byte) : (decodeChan bank addr d).wf = true := by
  obtain ⟨hlo, hhi, hgap⟩ := h
  have hcib := addr_cib_ne_gap hgap
  unfold decodeChan
  dsimp only
  split
  case h_3 | h_4 =>
    split
    · exact hcib
    · exact (reservedAddr_iff bank addr).mpr (by bv_omega)
  case h_7 => grind
  all_goals exact hcib

/-- R85: what the three ranges leave over is reserved. -/
theorem decodeReg_wf (w : BitVec 9) (d : Byte) : (decodeReg w d).wf = true := by
  rw [← regWord_fields w, decodeReg_regWord]
  split
  · next h =>
    obtain ⟨hlo, hhi, -⟩ := h
    exact decodeGlobal_wf ⟨hlo, hhi⟩ d
  split
  · next h => exact decodeSlot_wf h _ d
  split
  · next h => exact decodeChan_wf h _ d
  · exact (reservedAddr_iff _ _).mpr (by bv_omega)

/-! ### Encoding gives the decoded word back -/

theorem encodeWord_decodeGlobal (addr d : Byte) : encodeWord (decodeGlobal addr d) = .reg (regWord 0 addr) d := by
  unfold decodeGlobal
  split
  case h_13 => rfl
  all_goals
    next h =>
      obtain ⟨-, rfl⟩ := BitVec.toNat_eq_nat.mp h
      rfl

theorem encodeWord_decodeSlot (bank : BitVec 1) (addr d : Byte) :
    encodeWord (decodeSlot bank addr d) = .reg (regWord bank addr) d := by
  unfold decodeSlot
  dsimp only
  split
  case h_8 => rfl
  all_goals next h => rw [encodeWord, fieldAddr_of_div_16 h]

theorem encodeWord_decodeChan (bank : BitVec 1) (addr d : Byte) :
    encodeWord (decodeChan bank addr d) = .reg (regWord bank addr) d := by
  unfold decodeChan
  dsimp only
  split
  case h_3 h | h_4 h =>
    split
    · next hbank => rw [encodeWord, fieldAddr_of_div_4 h, hbank]
    · rfl
  case h_7 => rfl
  all_goals next h => rw [encodeWord, fieldAddr_of_div_4 h]

theorem encodeWord_decodeReg (w : BitVec 9) (d : Byte) : encodeWord (decodeReg w d) = .reg w d := by
  rw [← regWord_fields w, decodeReg_regWord]
  split
  · next h =>
    obtain ⟨-, -, hbank⟩ := h
    rw [encodeWord_decodeGlobal, hbank]
  split
  · exact encodeWord_decodeSlot _ _ d
  split
  · exact encodeWord_decodeChan _ _ d
  · rfl

/-! ### The pin word (R81) -/

theorem exists_busWord (w : BitVec 5) : ∃ cs rd wr a, w = busWord cs rd wr a :=
  ⟨w[4], w[3], w[2], w.extractLsb' 0 2, by revert w; decide⟩

theorem pinAddr_append_a1 (a1 a0 : BitVec 1) : (a1 ++ a0).extractLsb' 1 1 = a1 :=
  BitVec.extractLsb'_append_eq_left

theorem pinAddr_append_zero (a1 : BitVec 1) : (a1 ++ (0 : BitVec 1))[0] = false := by
  revert a1; decide

theorem pinAddr_append_one (a1 : BitVec 1) : (a1 ++ (1 : BitVec 1))[0] = true := by
  revert a1; decide

theorem pinAddr_of_a0_clear {a : BitVec 2} (h : ¬a[0] = true) : a.extractLsb' 1 1 ++ (0 : BitVec 1) = a := by
  revert a; decide

theorem pinAddr_of_a0_set {a : BitVec 2} (h : a[0] = true) : a.extractLsb' 1 1 ++ (1 : BitVec 1) = a := by
  revert a; decide

theorem decodeBus_wf (w : BitVec 5) (data : Byte) : (decodeBus w data).wf = true := by
  obtain ⟨cs, rd, wr, a, rfl⟩ := exists_busWord w
  rw [decodeBus_busWord]
  split
  · split
    · split <;> rfl
    split
    · split
      · rfl
      · next ha => exact bne_iff_ne.mpr ha
    · next hwr hrd => simp [Instr.wf, busWord_rd, busWord_wr, hwr, hrd]
  · next hcs => simp [Instr.wf, busWord_cs, hcs]

/-- R81: the word comes back, and the data byte with it where the word is a write. -/
theorem encodeWord_decodeBus (w : BitVec 5) (data : Byte) :
    ∃ data', encodeWord (decodeBus w data) = .bus w data' ∧ (w[4] = true → w[2] = true → data' = data) := by
  obtain ⟨cs, rd, wr, a, rfl⟩ := exists_busWord w
  rw [decodeBus_busWord, busWord_cs, busWord_wr]
  cases cs with
  | false => exact ⟨0, rfl, nofun⟩
  | true =>
    cases wr with
    | true =>
      refine ⟨data, ?_, fun _ _ => rfl⟩
      rw [if_pos rfl, if_pos rfl]
      split
      · next h => rw [encodeWord, pinAddr_of_a0_set h]
      · next h => rw [encodeWord, pinAddr_of_a0_clear h]
    | false =>
      refine ⟨0, ?_, nofun⟩
      rw [if_pos rfl, if_neg nofun]
      cases rd with
      | false => rfl
      | true =>
        rw [if_pos rfl]
        split
        · next h => rw [h, encodeWord]
        · rfl

/-- R81: the words that are idle. -/
theorem decodeBus_of_idle {w : BitVec 5} (h : (Instr.idle w).wf = true) (data : Byte) : decodeBus w data = .idle w := by
  obtain ⟨cs, rd, wr, a, rfl⟩ := exists_busWord w
  simp only [Instr.wf, busWord_cs, busWord_rd, busWord_wr] at h
  rw [decodeBus_busWord]
  cases cs with
  | false => rfl
  | true =>
    obtain ⟨rfl, rfl⟩ : rd = false ∧ wr = false := by simpa using h
    rfl

/-! ### Decoding gives the encoded instruction back -/

/-- The decoder of the word's format. -/
def Encoding.decoded : Encoding → Instr
  | .bus w data => decodeBus w data
  | .reg w d => decodeReg w d

/-- The byte layout (log entry 16) loses nothing and leaves no padding bit set. -/
theorem decode_bytes (e : Encoding) : decode e.format e.bytes = .ok e.decoded := by
  cases e with
  | bus w data =>
    have hpad : (w.zeroExtend 8).extractLsb' 5 3 = 0 := by revert w; decide
    have hword : (w.zeroExtend 8).extractLsb' 0 5 = w := by revert w; decide
    simp only [Encoding.format, Encoding.bytes, decode, hpad, hword, if_true, Encoding.decoded]
  | reg w d =>
    have hpad (b : BitVec 1) : (b.zeroExtend 8).extractLsb' 1 7 = 0 := by revert b; decide
    have hbank (b : BitVec 1) : (b.zeroExtend 8).extractLsb' 0 1 = b := by revert b; decide
    have hword : w.extractLsb' 8 1 ++ w.extractLsb' 0 8 = w := regWord_fields w
    simp only [Encoding.format, Encoding.bytes, decode, hpad, hbank, hword, if_true, Encoding.decoded]

/-- R80 to R89 on words: a well-formed term's fields put its word in the range of R81 or R85 that its row stands in. -/
theorem decoded_encodeWord {i : Instr} (h : i.wf = true) : (encodeWord i).decoded = i := by
  cases i
  case idle p => exact decodeBus_of_idle h 0
  case waddr rd bank data =>
    rw [encodeWord, Encoding.decoded, decodeBus_busWord, pinAddr_append_zero, pinAddr_append_a1]
    rfl
  case wdata rd a1 data =>
    rw [encodeWord, Encoding.decoded, decodeBus_busWord, pinAddr_append_one, pinAddr_append_a1]
    rfl
  case rstat => rfl
  case rfloat a =>
    rw [encodeWord, Encoding.decoded, decodeBus_busWord, if_neg (bne_iff_ne.mp h)]
    rfl
  case test1 | lfo | reserved23 | taHi | taLo | tb | mode | keyon | reserved29 | dacdata | dacen | test2 => rfl
  case dtMul | tl | ksAr | amDr | sr | slRr | ssgeg =>
    rw [encodeWord, Encoding.decoded, decodeReg_slotAddr _ _ _ (by decide) (bne_iff_ne.mp h)]
    simp only [decodeSlot, fieldAddr_div_16, fieldAddr_cib, fieldAddr_sub]
    rfl
  case fnumLo | fnumHi | fnum3Lo | fnum3Hi | fbAlg | panLfo =>
    rw [encodeWord, Encoding.decoded, decodeReg_chanAddr _ _ (by decide) (bne_iff_ne.mp h)]
    simp only [decodeChan, fieldAddr_div_4, fieldAddr_cib]
    rfl
  case reserved bank addr d => exact decodeReg_reservedAddr h d

/-- Settles O1: the bytes decode to what the word decodes to. -/
theorem decodeAfterEncode : Obligations.DecodeAfterEncode := by
  intro i h
  rw [formatOf, encode, decode_bytes, decoded_encodeWord h]

/-- Settles O2: the two word decoders by their branches. -/
theorem encodeAfterDecode : Obligations.EncodeAfterDecode :=
  ⟨fun w data => ⟨decodeBus_wf w data, encodeWord_decodeBus w data⟩,
    fun w d => ⟨decodeReg_wf w d, encodeWord_decodeReg w d⟩⟩

/-- Settles O3: a decoded `RESERVED` is well-formed, so its address is reserved. -/
theorem reservedExactly : Obligations.ReservedExactly := by
  intro bank addr d
  constructor
  · intro h
    have hwf := decodeReg_wf (regWord bank addr) d
    rwa [h] at hwf
  · intro h
    exact decodeReg_reservedAddr h d

/-- Settles O4: closed words, which the decoder runs on. -/
theorem sampleWordsDecode : Obligations.SampleWordsDecode := by
  unfold Obligations.SampleWordsDecode
  decide

namespace Machine

/-! ### Register writes without effect (`43_register_writes.md` R173, R187) -/

@[simp] theorem targetSlot_gap (bank : BitVec 1) (pos : BitVec 2) : targetSlot bank pos 3 = none := rfl

@[simp] theorem targetChan_gap (bank : BitVec 1) : targetChan bank 3 = none := rfl

@[simp] theorem targetSet_gap : targetSet 3 = none := rfl

@[simp] theorem State.writeSlot_none (s : State) (f : Fin 24 → SlotRegs → SlotRegs) : s.writeSlot none f = s := rfl

@[simp] theorem State.writeChan_none {n : Nat} (s : State) (f : Fin n → ChanRegs → ChanRegs) :
    s.writeChan none f = s := rfl

/-- Settles O19: `cib = 3` has no target (R83), and a write without a target leaves the state alone. -/
theorem writesWithoutEffectComplete : Obligations.WritesWithoutEffectComplete := by
  intro bank pos addr d s
  refine ⟨rfl, rfl, rfl, ?_⟩
  simp only [exec, execDtMul, execTl, execKsAr, execAmDr, execSr, execSlRr, execSsgeg, execFnumLo, execFnumHi, execFnum3Lo,
    execFnum3Hi, execFbAlg, execPanLfo, targetSlot_gap, targetChan_gap, targetSet_gap, State.writeSlot_none,
    State.writeChan_none, and_self]

end Machine

end Sys2Proof
end

section
/-! One oscillator sample around its phase 1 (`spec/40_clock_prescaler.md` R100 to R109, `spec/49_accumulator_dac.md` R321): the
bus operation on the pins, the prescaler, the reset synchroniser, the divided clocks and the serializer they drive. -/

namespace Sys2Proof

theorem Config.two_le_dclkPeriod_of_wf {c : Config} (h : c.wf = true) : 2 ≤ c.dclkPeriod := by
  simp only [wf, periodsOk, Bool.and_eq_true, decide_eq_true_eq] at h
  obtain ⟨⟨⟨⟨⟨⟨⟨⟨-, hdclk⟩, -⟩, -⟩, -⟩, -⟩, -⟩, -⟩, -⟩ := h
  exact hdclk

/-- R80 in the byte layout of log entry 16. -/
theorem decode_pinWord (w : BitVec 5) (data : Byte) :
    decode .bus [w.zeroExtend 8, data] = .ok (decodeBus w data) :=
  decode_bytes (.bus w data)

namespace Machine

/-- Settles O5: the instruction decoded from the pins' bytes is the bus operation that the step fetches. -/
theorem stepRunsBusOperation : Obligations.StepRunsBusOperation := by
  refine ⟨fun s i hdecode => ?_, fun s => ⟨rfl, rfl⟩⟩
  rw [decode_pinWord] at hdecode
  have hop : s.sampled.busOp = i := Except.ok.inj hdecode
  rw [← hop]
  rfl

namespace State

/-! ### The prescaler (R101, R102) -/

theorem rises_iff_stepTo_oscHist (s : State) : s.rises = true ↔ s.stepTo.raw.oscHist = 0b01 := by
  rw [stepTo_oscHist, rises, rise, beq_iff_eq]

theorem tickStarts_iff_of_rises {s : State} (h : s.rises = true) : s.tickStarts = true ↔ s.raw.prescCnt = 0 := by
  rw [tickStarts_iff, and_iff_right h]

theorem tickEnds_iff_of_rises {s : State} (h : s.rises = true) :
    s.tickEnds = true ↔ s.raw.prescCnt = s.cfg.prescPeriod / 2 := by
  rw [tickEnds_iff, and_iff_right h]

theorem tickStarts_of_not_rises {s : State} (h : ¬s.rises = true) : s.tickStarts = false :=
  Bool.eq_false_iff.mpr fun hs => h (s.tickStarts_iff.mp hs).1

theorem tickEnds_of_not_rises {s : State} (h : ¬s.rises = true) : s.tickEnds = false :=
  Bool.eq_false_iff.mpr fun he => h (s.tickEnds_iff.mp he).1

end State

/-- Settles O20: the shifted history says whether the sample has an edge, and with it the events and the count. -/
theorem prescalerCounts : Obligations.PrescalerCounts := by
  intro s
  have hrises := s.rises_iff_stepTo_oscHist
  refine ⟨s.stepTo, s.step_eq, rfl, s.stepTo_oscHist, hrises, fun hedge => ?_, fun hedge => ?_⟩
  · have hr : s.rises = true := hrises.mpr hedge
    refine ⟨State.tickStarts_iff_of_rises hr, State.tickEnds_iff_of_rises hr, ?_⟩
    rw [State.stepTo_prescCnt, if_pos hr]
    rfl
  · have hr : ¬s.rises = true := mt hrises.mp hedge
    refine ⟨State.tickStarts_of_not_rises hr, State.tickEnds_of_not_rises hr, ?_⟩
    rw [State.stepTo_prescCnt, if_neg hr]

/-- Settles O23: the forcing of R360 leaves the reset pairs as phase 1 has them. -/
theorem resetSynchroniserShifts : Obligations.ResetSynchroniserShifts := by
  intro s htick
  refine ⟨s.stepTo, s.step_eq, ?_⟩
  rw [State.stepTo_nxt_rst htick]
  exact ⟨rfl, rfl⟩

/-- The five serializer latches of R36. -/
structure SerialLatches where
  dacSr : Nat
  so : Bool
  wc : Bool
  lrc : Bool
  bck : Bool

/-- The serializer latches among the raw latches. -/
def Raw.serial (r : Raw) : SerialLatches := { dacSr := r.dacSr, so := r.so, wc := r.wc, lrc := r.lrc, bck := r.bck }

theorem Raw.serial_eq_iff {r : Raw} {l : SerialLatches} :
    r.serial = l ↔ r.dacSr = l.dacSr ∧ r.so = l.so ∧ r.wc = l.wc ∧ r.lrc = l.lrc ∧ r.bck = l.bck := by
  obtain ⟨_, _, _, _, _⟩ := l
  simp only [Raw.serial, SerialLatches.mk.injEq]

namespace State

/-! ### The divided clocks (R107, R108) -/

/-- The step has an edge of the clock that the divided clocks count: `VAR_MONO` has none. -/
def Clocked (s : State) : Prop := s.cfg.variant = .stereo ∧ s.rises = true

/-- Divided clock 1 occurs in the step. -/
def dclk1 (s : State) : Bool := s.sampled.dclk1Event

/-- Divided clock 2 occurs in the step. -/
def dclk2 (s : State) : Bool := s.sampled.dclk2Event

theorem dclk1_iff (s : State) : s.dclk1 = true ↔ s.Clocked ∧ s.raw.dclkCnt = 0 := by
  simp only [dclk1, dclk1Event, hasDclk, Clocked, rises, sampled_cfg, sampled_dclkCnt, Bool.and_eq_true, beq_iff_eq]

theorem dclk2_iff (s : State) : s.dclk2 = true ↔ s.Clocked ∧ s.raw.dclkCnt = s.cfg.dclkPeriod / 2 := by
  simp only [dclk2, dclk2Event, hasDclk, Clocked, rises, sampled_cfg, sampled_dclkCnt, Bool.and_eq_true, beq_iff_eq]

/-- The two divided clocks occur in different samples: the least period is 2. -/
theorem dclk1_eq_false_of_half {s : State} (hwf : s.cfg.wf = true) (hj : s.raw.dclkCnt = s.cfg.dclkPeriod / 2) :
    s.dclk1 = false := by
  have hperiod := Config.two_le_dclkPeriod_of_wf hwf
  refine Bool.eq_false_iff.mpr fun h => ?_
  obtain ⟨-, h0⟩ := s.dclk1_iff.mp h
  omega

theorem afterTick_dclk1Event (s : State) : s.afterTick.dclk1Event = s.dclk1 := by
  simp only [dclk1Event, dclk1, hasDclk, afterTick_cfg, afterTick_rise, afterTick_dclkCnt, sampled_cfg, sampled_dclkCnt,
    rises]

theorem afterTick_dclk2Event (s : State) : s.afterTick.dclk2Event = s.dclk2 := by
  simp only [dclk2Event, dclk2, hasDclk, afterTick_cfg, afterTick_rise, afterTick_dclkCnt, sampled_cfg, sampled_dclkCnt,
    rises]

theorem stepTo_dclkCnt_of_variant (s : State) :
    s.stepTo.raw.dclkCnt
      = if s.cfg.variant = .stereo ∧ s.rises = true then (s.raw.dclkCnt + 1) % s.cfg.dclkPeriod else s.raw.dclkCnt := by
  simp only [stepTo_dclkCnt, hasDclk, Bool.and_eq_true, beq_iff_eq, and_comm]

/-! ### The serializer (R321) -/

theorem serialize_of_dclk1 (s : State) (d2 : Bool) :
    (s.serialize false true d2).raw.serial =
      { dacSr := serialWord s.cfg (enables s.cfg s.cur) s.cur s.raw.dacSr
        so := (serialWord s.cfg (enables s.cfg s.cur) s.cur s.raw.dacSr).testBit (2 * s.cfg.dacWordBits - 1)
        wc := (enables s.cfg s.cur).shWc
        lrc := (enables s.cfg s.cur).shLr
        bck := true } := rfl

theorem serialize_of_dclk2 (s : State) :
    (s.serialize false false true).raw.serial = { s.raw.serial with bck := false } := rfl

theorem serialize_of_no_event (s : State) : s.serialize false false false = s := rfl

/-- Nothing before the serializer of a sample writes its latches. -/
theorem afterTick_serial (s : State) : s.afterTick.raw.serial = s.raw.serial := by
  have hbus : s.afterBus.raw.serial = s.raw.serial := by
    simp only [Raw.serial, afterBus_dacSr, afterBus_so, afterBus_wc, afterBus_lrc, afterBus_bck]
  have hphase1 (t : State) : t.written.forceReset.raw.serial = t.raw.serial := by
    rw [forceReset_raw, written_raw]
    rfl
  unfold afterTick
  split
  · rw [hphase1, hbus]
  · exact hbus

/-- The state after the commit of the sample, which the serializer reads (log entry 8). -/
def committed (s : State) : State := if s.tickEnds then s.afterTick.commit else s.afterTick

theorem committed_cfg (s : State) : s.committed.cfg = s.cfg := by
  unfold committed; split <;> simp [afterTick_cfg]

theorem committed_cur (s : State) : s.committed.cur = s.stepTo.cur := by
  rw [stepTo_cur, committed]
  split
  · exact commit_cur _
  · exact afterTick_cur s

theorem committed_serial (s : State) : s.committed.raw.serial = s.raw.serial := by
  unfold committed; split <;> simp [afterTick_serial]

theorem committed_dacSr (s : State) : s.committed.raw.dacSr = s.raw.dacSr :=
  congrArg SerialLatches.dacSr s.committed_serial

/-- The serializer latches after a step are those the serializer leaves. -/
theorem stepTo_serial (s : State) :
    s.stepTo.raw.serial =
      (s.committed.serialize (s.cur.rst.ic || s.stepTo.cur.rst.ic) s.dclk1 s.dclk2).raw.serial := by
  have hclocks (t : State) : t.advanceClocks.drive.raw.serial = t.raw.serial := by
    simp only [Raw.serial, drive_raw, advanceClocks_dacSr, advanceClocks_so, advanceClocks_wc, advanceClocks_lrc,
      advanceClocks_bck]
  have hstep : s.stepTo =
      (s.committed.serialize (s.cur.rst.ic || s.committed.cur.rst.ic) s.dclk1 s.dclk2).advanceClocks.drive := by
    rw [stepTo, finish, afterTick_phase2Event, afterTick_cur, afterTick_dclk1Event, afterTick_dclk2Event]
    rfl
  rw [committed_cur] at hstep
  exact (congrArg (·.raw.serial) hstep).trans (hclocks _)

section OutOfReset

variable {s : State} (hrun : ¬(s.cur.rst.ic = true ∨ s.stepTo.cur.rst.ic = true))
include hrun

theorem stepTo_serial_of_run :
    s.stepTo.raw.serial = (s.committed.serialize false s.dclk1 s.dclk2).raw.serial := by
  have hreset : (s.cur.rst.ic || s.stepTo.cur.rst.ic) = false :=
    Bool.eq_false_iff.mpr (mt Bool.or_eq_true_iff.mp hrun)
  rw [stepTo_serial, hreset]

/-- Divided clock 1 loads or shifts, from the pairs after the step. -/
theorem stepTo_serial_of_dclk1 (h : s.dclk1 = true) :
    s.stepTo.raw.serial =
      { dacSr := serialWord s.cfg (enables s.cfg s.stepTo.cur) s.stepTo.cur s.raw.dacSr
        so := (serialWord s.cfg (enables s.cfg s.stepTo.cur) s.stepTo.cur s.raw.dacSr).testBit (2 * s.cfg.dacWordBits - 1)
        wc := (enables s.cfg s.stepTo.cur).shWc
        lrc := (enables s.cfg s.stepTo.cur).shLr
        bck := true } := by
  rw [stepTo_serial_of_run hrun, h, serialize_of_dclk1, committed_cfg, committed_cur, committed_dacSr]

theorem stepTo_serial_of_dclk2 (h1 : s.dclk1 = false) (h2 : s.dclk2 = true) :
    s.stepTo.raw.serial = { s.raw.serial with bck := false } := by
  rw [stepTo_serial_of_run hrun, h1, h2, serialize_of_dclk2, committed_serial]

theorem stepTo_serial_of_no_event (h1 : s.dclk1 = false) (h2 : s.dclk2 = false) :
    s.stepTo.raw.serial = s.raw.serial := by
  rw [stepTo_serial_of_run hrun, h1, h2, serialize_of_no_event, committed_serial]

end OutOfReset

end State

/-- Settles O60: out of reset the serializer latches by the divided clock of the step. -/
theorem serializerShifts : Obligations.SerializerShifts := by
  intro s hwf
  refine ⟨s.stepTo, s.step_eq, s.stepTo_dclkCnt_of_variant, State.stepTo_serialIdle, fun hrun hclocked hj => ?_,
    fun hrun hclocked hj => ?_, fun hrun hnone => ?_⟩
  · obtain ⟨hsr, hso, hwc, hlrc, hbck⟩ :=
      Raw.serial_eq_iff.mp (State.stepTo_serial_of_dclk1 hrun (s.dclk1_iff.mpr ⟨hclocked, hj⟩))
    exact ⟨hsr, hso, hlrc, hwc, hbck⟩
  · obtain ⟨hsr, hso, hwc, hlrc, hbck⟩ := Raw.serial_eq_iff.mp
      (State.stepTo_serial_of_dclk2 hrun (State.dclk1_eq_false_of_half hwf hj) (s.dclk2_iff.mpr ⟨hclocked, hj⟩))
    exact ⟨⟨hsr, hso, hwc, hlrc⟩, hbck⟩
  · have h1 : s.dclk1 = false := Bool.eq_false_iff.mpr fun h => by
      obtain ⟨hclocked, hj⟩ := s.dclk1_iff.mp h
      exact hnone.elim (· hclocked) (·.1 hj)
    have h2 : s.dclk2 = false := Bool.eq_false_iff.mpr fun h => by
      obtain ⟨hclocked, hj⟩ := s.dclk2_iff.mp h
      exact hnone.elim (· hclocked) (·.2 hj)
    obtain ⟨hsr, hso, hwc, hlrc, hbck⟩ := Raw.serial_eq_iff.mp (State.stepTo_serial_of_no_event hrun h1 h2)
    exact ⟨⟨hsr, hso, hwc, hlrc⟩, hbck⟩

end Machine

end Sys2Proof
end

section
/-! The bus front end (`spec/41_bus_front_end.md` R120 to R134): the pin side by its strobes, the answer of a read, the five bus
operations, the hand-over to the clocked half with the capture of address and data, the busy countdown, the output record. -/

namespace Sys2Proof

namespace Machine

/-- The status byte in reset and out of it (R129). -/
theorem Regs.status_eq (r : Regs) :
    r.status = if r.rst.ic then 0 else
      BitVec.ofBool (r.bus.busyCnt != 0) ++ (0 : BitVec 5) ++ BitVec.ofBool r.tmr.tbFlag
        ++ BitVec.ofBool r.tmr.taFlag := by
  have hassoc (busy tb ta : Bool) :
      BitVec.ofBool busy ++ ((0 : BitVec 5) ++ (BitVec.ofBool tb ++ BitVec.ofBool ta))
        = BitVec.ofBool busy ++ (0 : BitVec 5) ++ BitVec.ofBool tb ++ BitVec.ofBool ta := by
    revert busy tb ta; decide
  exact congrArg (fun b => if r.rst.ic then 0 else b) (hassoc r.busy r.tmr.tbFlag r.tmr.taFlag)

theorem Regs.status_of_run {r : Regs} (hrun : r.rst.ic = false) :
    r.status = BitVec.ofBool (r.bus.busyCnt != 0) ++ (0 : BitVec 5) ++ BitVec.ofBool r.tmr.tbFlag
      ++ BitVec.ofBool r.tmr.taFlag := by
  rw [status_eq, hrun]; rfl

theorem Regs.status_of_reset {r : Regs} (hic : r.rst.ic = true) : r.status = 0 := by rw [status, if_pos hic]

namespace State

/-! ### The internal bus (R126) -/

theorem bus_of_run {s : State} (hrun : s.cur.rst.ic = false) : s.bus = s.raw.dataLatch := by
  rw [bus, hrun]; rfl

/-! ### The pin side out of reset (R122 to R124) -/

section OutOfReset

variable {s : State} (hrun : s.cur.rst.ic = false)
include hrun

theorem pinSide_of_run (wa wd : Bool) (bank : BitVec 1) (data : Byte) :
    s.pinSide wa wd bank data =
      { s with
        raw :=
          { s.raw with
            dataLatch := if wa || wd then data else s.raw.dataLatch
            bankLatch := if wa then bank else s.raw.bankLatch
            waPend := s.raw.waPend || (wa && !s.raw.waPrev)
            wdPend := s.raw.wdPend || (wd && !s.raw.wdPrev)
            waPrev := wa
            wdPrev := wd } } := by
  rw [pinSide, hrun]; rfl

theorem pinSide_of_no_write (bank : BitVec 1) (data : Byte) :
    s.pinSide false false bank data = { s with raw := { s.raw with waPrev := false, wdPrev := false } } := by
  simp [pinSide_of_run hrun]

theorem pinSide_of_waddr (bank : BitVec 1) (data : Byte) :
    s.pinSide true false bank data =
      { s with
        raw :=
          { s.raw with
            dataLatch := data, bankLatch := bank, waPend := s.raw.waPend || !s.raw.waPrev, waPrev := true
            wdPrev := false } } := by
  simp [pinSide_of_run hrun]

theorem pinSide_of_wdata (bank : BitVec 1) (data : Byte) :
    s.pinSide false true bank data =
      { s with
        raw :=
          { s.raw with
            dataLatch := data, wdPend := s.raw.wdPend || !s.raw.wdPrev, wdPrev := true, waPrev := false } } := by
  simp [pinSide_of_run hrun]

/-- A write shows its byte on the internal bus in the same sample. -/
theorem pinSide_bus_of_write {wa wd : Bool} (hw : (wa || wd) = true) (bank : BitVec 1) (data : Byte) :
    (s.pinSide wa wd bank data).bus = data := by
  rw [bus_of_run (show (s.pinSide wa wd bank data).cur.rst.ic = false from hrun), pinSide_of_run hrun]
  exact if_pos hw

/-- A bus operation without a write ends the strobes and answers its read from the state it finds. -/
theorem driveData_of_no_write (bank : BitVec 1) (data : Byte) (r : Bool) (a : BitVec 2) :
    (s.pinSide false false bank data).driveData r a =
      { s with
        raw := { s.raw with waPrev := false, wdPrev := false }
        out := { s.out with dataOut := (s.busRead r a).1, dataOutEn := (s.busRead r a).2 } } := by
  rw [pinSide_of_no_write hrun]
  rfl

end OutOfReset

/-! ### The answer of a read (R129 to R133) -/

theorem busRead_of_no_read (s : State) (a : BitVec 2) : s.busRead false a = (s.bus, false) := rfl

theorem busRead_zero (s : State) : s.busRead true 0 = (s.statusByte, true) := rfl

theorem busRead_of_ne_zero (s : State) {a : BitVec 2} (ha : a ≠ 0) : s.busRead true a = (s.floatByte, false) := by
  rw [busRead, if_pos rfl, if_neg ha]

theorem statusByte_of_status {s : State} (h : s.cur.tReadSel = false) : s.statusByte = s.cur.status := by
  rw [statusByte, h]; rfl

theorem statusByte_of_tap {s : State} (h : s.cur.tReadSel = true) : s.statusByte = Config.testTap s.cur := by
  rw [statusByte, if_pos h]

theorem floatByte_of_bus {s : State} (h : s.cfg.floatBus = .bus) : s.floatByte = s.bus := by rw [floatByte, h]

theorem floatByte_of_fixed {s : State} {b : Byte} (h : s.cfg.floatBus = .fixed b) : s.floatByte = b := by
  rw [floatByte, h]

theorem floatByte_of_unknown {s : State} {n : Nat} (h : s.cfg.floatBus = .unknown n) :
    s.floatByte = Config.floatTap n := by rw [floatByte, h]

end State

/-! ### The five bus operations (R120 to R134) -/

theorem exec_idle (p : BitVec 5) (s : State) :
    exec (.idle p) s = .next ((s.pinSide false false 0 0).driveData false 0) := rfl

theorem exec_waddr (rd : Bool) (bank : BitVec 1) (data : Byte) (s : State) :
    exec (.waddr rd bank data) s
      = .next ((s.pinSide true false bank data).driveData rd (bank ++ (0 : BitVec 1))) := rfl

theorem exec_wdata (rd : Bool) (a1 : BitVec 1) (data : Byte) (s : State) :
    exec (.wdata rd a1 data) s = .next ((s.pinSide false true 0 data).driveData rd (a1 ++ (1 : BitVec 1))) := rfl

theorem exec_rstat (s : State) : exec .rstat s = .next ((s.pinSide false false 0 0).driveData true 0) := rfl

theorem exec_rfloat (a : BitVec 2) (s : State) :
    exec (.rfloat a) s = .next ((s.pinSide false false 0 0).driveData true a) := rfl

/-- Settles O13: the state of the decoded operation, which `State.execTo_busOp` gives for every pin word. -/
theorem busOperationFollowsPins : Obligations.BusOperationFollowsPins := by
  intro s
  obtain ⟨o, h⟩ := s.execTo_busOp
  exact ⟨o, by rw [exec_eq, h]; rfl⟩

/-- Settles O8: no write and no read, so the internal bus is shown. -/
theorem idleCompletes : Obligations.IdleCompletes := by
  intro p s hrun
  rw [exec_idle, State.driveData_of_no_write hrun, State.busRead_of_no_read, State.bus_of_run hrun]

/-- Settles O9: the read half answers from the state that the write has left. -/
theorem waddrCompletes : Obligations.WaddrCompletes := by
  intro rd bank data s hrun
  have hbus : (s.pinSide true false bank data).bus = data := State.pinSide_bus_of_write hrun rfl bank data
  refine ⟨((s.pinSide true false bank data).driveData rd (bank ++ (0 : BitVec 1))).out, ?_, rfl, ?_, ?_, ?_⟩
  · rw [exec_waddr, State.pinSide_of_waddr hrun]
    rfl
  · rintro rfl
    exact ⟨hbus, rfl⟩
  · rintro rfl rfl
    exact ⟨rfl, fun hsel => State.statusByte_of_status (s := s.pinSide true false 0 data) hsel⟩
  · rintro rfl rfl
    exact ⟨rfl, fun hfloat => (State.floatByte_of_bus (s := s.pinSide true false 1 data) hfloat).trans hbus⟩

/-- Settles O10: with `a0 = 1` the read half is never the status read. -/
theorem wdataCompletes : Obligations.WdataCompletes := by
  intro rd a1 data s hrun
  have hbus : (s.pinSide false true 0 data).bus = data := State.pinSide_bus_of_write hrun rfl 0 data
  have haddr : (a1 ++ (1 : BitVec 1) : BitVec 2) ≠ 0 := by revert a1; decide
  have hread : (s.pinSide false true 0 data).busRead true (a1 ++ (1 : BitVec 1))
      = ((s.pinSide false true 0 data).floatByte, false) := State.busRead_of_ne_zero _ haddr
  refine ⟨((s.pinSide false true 0 data).driveData rd (a1 ++ (1 : BitVec 1))).out, ?_, rfl, ?_, ?_, ?_⟩
  · rw [exec_wdata, State.pinSide_of_wdata hrun]
    rfl
  · cases rd with
    | false => rfl
    | true => exact congrArg Prod.snd hread
  · rintro rfl
    exact hbus
  · rintro rfl hfloat
    calc ((s.pinSide false true 0 data).busRead true (a1 ++ (1 : BitVec 1))).1
        = (s.pinSide false true 0 data).floatByte := congrArg Prod.fst hread
      _ = (s.pinSide false true 0 data).bus := State.floatByte_of_bus hfloat
      _ = data := hbus

/-- Settles O11: a status read answers `State.statusByte`, whether or not the chip is in reset. -/
theorem rstatCompletes : Obligations.RstatCompletes := by
  refine ⟨fun s hrun => ⟨s.statusByte, ?_, fun hsel => ?_, State.statusByte_of_tap⟩, fun s hic hsel => ?_⟩
  · rw [exec_rstat, State.driveData_of_no_write hrun, State.busRead_zero]
  · rw [State.statusByte_of_status hsel, Regs.status_of_run hrun]
  · have hzero : s.statusByte = 0 := (State.statusByte_of_status hsel).trans (Regs.status_of_reset hic)
    exact ⟨_, exec_rstat s, hzero, rfl, rfl, rfl⟩

/-- Settles O12: a read of an address that is not 0 answers `State.floatByte`. -/
theorem rfloatCompletes : Obligations.RfloatCompletes := by
  refine fun a s hrun => ⟨fun ha => ⟨s.floatByte, ?_, fun hfloat => ?_, fun _ => State.floatByte_of_fixed,
    fun _ => State.floatByte_of_unknown⟩, rfl⟩
  · rw [exec_rfloat, State.driveData_of_no_write hrun, State.busRead_of_ne_zero s ha]
  · rw [State.floatByte_of_bus hfloat, State.bus_of_run hrun]

/-! ### The clocked half (R125 to R127, `spec/42_register_scan.md` R144, R145) -/

/-- The address capture comes with the address strobe's enable, and no data is captured in that tick (R144, R145). -/
theorem busNext_of_waEn {s : State} (hwa : s.cur.bus.waEn = true) :
    busNext s =
      { waEn := s.raw.waPend, wdEn := s.raw.wdPend, regAddr := s.bus, regBank := s.raw.bankLatch
        regData := s.cur.bus.regData, dataValid := false, busyCnt := busyNext s.cfg s.cur } := by
  simp [busNext, globalPulse, hwa]

/-- The data capture comes with the global write pulse (R145). -/
theorem busNext_of_globalPulse {s : State} (hwa : s.cur.bus.waEn = false) (hwd : s.cur.bus.wdEn = true) :
    busNext s =
      { waEn := s.raw.waPend, wdEn := s.raw.wdPend, regAddr := s.cur.bus.regAddr, regBank := s.cur.bus.regBank
        regData := s.bus, dataValid := true, busyCnt := busyNext s.cfg s.cur } := by
  simp [busNext, globalPulse, hwa, hwd]

/-- Without an enable the captured address and data hold. -/
theorem busNext_of_no_enable {s : State} (hwa : s.cur.bus.waEn = false) (hwd : s.cur.bus.wdEn = false) :
    busNext s =
      { s.cur.bus with waEn := s.raw.waPend, wdEn := s.raw.wdPend, busyCnt := busyNext s.cfg s.cur } := by
  simp [busNext, globalPulse, hwa, hwd]

theorem busyNext_of_wdEn (c : Config) {r : Regs} (h : r.bus.wdEn = true) : busyNext c r = c.busyLen := by
  rw [busyNext, if_pos h]

theorem busyNext_of_not_wdEn (c : Config) {r : Regs} (h : r.bus.wdEn = false) :
    busyNext c r = r.bus.busyCnt - 1 := by
  rw [busyNext, h]; rfl

namespace State

/-- The raw latches after the bus operation of a sample out of reset, by the strobes of its input record. -/
theorem afterBus_raw_of_run {s : State} (hrun : s.cur.rst.ic = false) :
    s.afterBus.raw =
      { s.sampled.raw with
        dataLatch := if s.sampled.ioWa || s.sampled.ioWd then s.nextPins.data else s.raw.dataLatch
        bankLatch := if s.sampled.ioWa then s.nextPins.address.extractLsb' 1 1 else s.raw.bankLatch
        waPend := s.raw.waPend || (s.sampled.ioWa && !s.raw.waPrev)
        wdPend := s.raw.wdPend || (s.sampled.ioWd && !s.raw.wdPrev)
        waPrev := s.sampled.ioWa
        wdPrev := s.sampled.ioWd } := by
  obtain ⟨_, h⟩ := s.sampled.execTo_busOp
  rw [afterBus, h, pinSide_of_run (s := s.sampled) hrun]
  rfl

theorem afterBus_bus_of_run {s : State} (hrun : s.cur.rst.ic = false) :
    s.afterBus.bus = if s.sampled.ioWa || s.sampled.ioWd then s.nextPins.data else s.raw.dataLatch := by
  have hrun' : s.afterBus.cur.rst.ic = false := by rw [afterBus_cur, hrun]
  rw [bus_of_run hrun', afterBus_raw_of_run hrun]

/-- A tick consumes the address strobe (R125). -/
theorem stepTo_waPend_of_tick {s : State} (h : s.tickStarts = true) : s.stepTo.raw.waPend = false := by
  rw [stepTo, finish_waPend, afterTick, if_pos h, forceReset_raw, written_raw, phase1_waPend]

/-- A tick consumes the data strobe (R125). -/
theorem stepTo_wdPend_of_tick {s : State} (h : s.tickStarts = true) : s.stepTo.raw.wdPend = false := by
  rw [stepTo, finish_wdPend, afterTick, if_pos h, forceReset_raw, written_raw, phase1_wdPend]

/-- A tick in reset leaves the bus pairs at their reset values (R125, R127, R360). -/
theorem stepTo_nxt_bus_of_reset {s : State} (h : s.tickStarts = true) (hic : s.cur.rst.ic = true) :
    s.stepTo.nxt.bus = Regs.reset.bus := by
  have hic' : s.afterBus.written.cur.rst.ic = true := by rw [written_cur, afterBus_cur, hic]
  rw [stepTo_nxt, afterTick_nxt_of_tick h, forceReset_nxt_of_ic hic']

theorem stepTo_busyCnt_of_run {s : State} (h : s.tickStarts = true) (hrun : s.cur.rst.ic = false) :
    s.stepTo.nxt.bus.busyCnt = busyNext s.cfg s.cur := by
  rw [stepTo_nxt_bus h hrun, busNext, afterBus_cfg, afterBus_cur]

end State

/-- Settles O30: what is captured follows from the enables of the tick, and its source is the latches after the bus operation
of the same sample. -/
theorem handOverAndCapture : Obligations.HandOverAndCapture := by
  intro s htick hrun
  have hbus := State.afterBus_bus_of_run hrun
  have hraw := State.afterBus_raw_of_run hrun
  have hcur := s.afterBus_cur
  refine ⟨s.stepTo, s.step_eq, ?_⟩
  rw [State.stepTo_nxt_bus htick hrun]
  refine ⟨congrArg Raw.waPend hraw, congrArg Raw.wdPend hraw, State.stepTo_waPend_of_tick htick,
    State.stepTo_wdPend_of_tick htick, fun hwa => ?_, fun hwa hwd => ?_, fun hwa hwd => ?_⟩
  · rw [busNext_of_waEn (s := s.afterBus) (by rw [hcur, hwa])]
    exact ⟨hbus, congrArg Raw.bankLatch hraw, by rw [hcur], rfl⟩
  · rw [busNext_of_globalPulse (s := s.afterBus) (by rw [hcur, hwa]) (by rw [hcur, hwd]), hcur]
    exact ⟨rfl, rfl, hbus, rfl⟩
  · rw [busNext_of_no_enable (s := s.afterBus) (by rw [hcur, hwa]) (by rw [hcur, hwd]), hcur]
    exact ⟨rfl, rfl, rfl, rfl⟩

/-- Settles O31: R127's three cases, and R360 in reset. -/
theorem busyCountsDown : Obligations.BusyCountsDown := by
  intro s htick
  refine ⟨s.stepTo, s.step_eq, fun hic => ?_, fun hrun hwd => ?_, fun hrun hwd hne => ?_, fun hrun hwd hzero => ?_⟩
  · rw [State.stepTo_nxt_bus_of_reset htick hic]
    rfl
  · rw [State.stepTo_busyCnt_of_run htick hrun, busyNext_of_wdEn _ hwd]
  · rw [State.stepTo_busyCnt_of_run htick hrun, busyNext_of_not_wdEn _ hwd]
    omega
  · rw [State.stepTo_busyCnt_of_run htick hrun, busyNext_of_not_wdEn _ hwd, hzero]

namespace State

/-! ### The output record of a step (R131, `spec/49_accumulator_dac.md` R320 to R323) -/

/-- The state a step leaves has just driven its output record. -/
theorem stepTo_audio (s : State) : s.stepTo.out.audio = s.stepTo.audio := rfl

theorem stepTo_data_of_no_read {s : State} (h : (s.nextPins.cs && s.nextPins.rd) = false) :
    s.stepTo.out.dataOut = s.stepTo.bus ∧ s.stepTo.out.dataOutEn = false := by
  rw [stepTo_dataOut, stepTo_dataOutEn, h]
  exact ⟨rfl, rfl⟩

theorem stepTo_data_of_status {s : State} (h : (s.nextPins.cs && s.nextPins.rd) = true) (ha : s.nextPins.address = 0) :
    s.stepTo.out.dataOut = s.stepTo.statusByte ∧ s.stepTo.out.dataOutEn = true := by
  rw [stepTo_dataOut, stepTo_dataOutEn, h, ha]
  exact ⟨rfl, rfl⟩

theorem stepTo_data_of_float {s : State} (h : (s.nextPins.cs && s.nextPins.rd) = true) (ha : s.nextPins.address ≠ 0) :
    s.stepTo.out.dataOut = s.stepTo.floatByte ∧ s.stepTo.out.dataOutEn = false := by
  rw [stepTo_dataOut, stepTo_dataOutEn, h, busRead_of_ne_zero _ ha]
  exact ⟨rfl, rfl⟩

theorem stepTo_audio_of_mono {s : State} (h : s.cfg.variant = .mono) :
    s.stepTo.out.audio = .mono (if s.stepTo.cur.rst.ic then 0 else s.stepTo.cur.acc.monoOut) := by
  rw [stepTo_audio, audio, stepTo_cfg, h]

theorem stepTo_audio_of_stereo {s : State} (h : s.cfg.variant = .stereo) :
    s.stepTo.out.audio = .stereo s.stepTo.raw.so s.stepTo.raw.wc s.stepTo.raw.lrc s.stepTo.raw.bck := by
  rw [stepTo_audio, audio, stepTo_cfg, h]

/-- A step that leaves the chip in reset shows the sample 0 (R323). -/
theorem stepTo_audio_of_mono_reset {s : State} (h : s.cfg.variant = .mono) (hic : s.stepTo.cur.rst.ic = true) :
    s.stepTo.out.audio = .mono 0 := by
  rw [stepTo_audio_of_mono h, if_pos hic]

/-- A step that leaves the chip in reset shows an idle serializer (R323). -/
theorem stepTo_audio_of_stereo_reset {s : State} (h : s.cfg.variant = .stereo) (hic : s.stepTo.cur.rst.ic = true) :
    s.stepTo.out.audio = .stereo false false false false := by
  obtain ⟨-, hso, hwc, hlrc, hbck⟩ := stepTo_serialIdle (Or.inr hic)
  rw [stepTo_audio_of_stereo h, hso, hwc, hlrc, hbck]

end State

/-- Settles O32: the data outputs by the read of the sample, the sample outputs by the variant; a step in reset leaves the
serializer idle. -/
theorem outputsFollowState : Obligations.OutputsFollowState := by
  intro s
  refine ⟨s.stepTo, s.step_eq, ⟨fun hrd ha => ?_, fun hrd ha => ?_, State.stepTo_data_of_no_read, ?_⟩, fun hic => ?_⟩
  · obtain ⟨hdata, hen⟩ := State.stepTo_data_of_status hrd ha
    rw [hdata, State.statusByte, Regs.status_eq]
    exact ⟨rfl, hen⟩
  · obtain ⟨hdata, hen⟩ := State.stepTo_data_of_float hrd ha
    rw [hdata, ← s.stepTo_cfg]
    exact ⟨hen, State.floatByte_of_bus, fun _ => State.floatByte_of_fixed, fun _ => State.floatByte_of_unknown⟩
  · cases hvar : s.cfg.variant with
    | mono => exact State.stepTo_audio_of_mono hvar
    | stereo => exact State.stepTo_audio_of_stereo hvar
  · cases hvar : s.cfg.variant with
    | mono => exact State.stepTo_audio_of_mono_reset hvar hic
    | stereo => exact State.stepTo_audio_of_stereo_reset hvar hic

end Machine

end Sys2Proof
end

section
/-! The register write of a tick (`spec/42_register_scan.md` R145, R147, `spec/43_register_writes.md` R160): which one is
pending, and what one of each class can change; the slot and the channel in front as the only ones a pipeline changes. -/

namespace Sys2Proof

/-! ### The register word of an instruction -/

theorem regWord_eq_iff {b b' : BitVec 1} {a a' : Byte} : regWord b a = regWord b' a' ↔ b = b' ∧ a = a' := by
  constructor
  · intro h
    constructor
    · rw [← regWord_bank b a, h, regWord_bank]
    · rw [← regWord_addr b a, h, regWord_addr]
  · rintro ⟨rfl, rfl⟩
    rfl

/-- R83 in the byte layout of log entry 16. -/
theorem decode_regWord (bank : BitVec 1) (addr d : Byte) :
    decode .reg [addr, bank.zeroExtend 8, d] = .ok (decodeReg (regWord bank addr) d) := by
  have h := decode_bytes (.reg (regWord bank addr) d)
  rwa [Encoding.format, Encoding.bytes, regWord_bank, regWord_addr] at h

namespace Machine

/-! ### The class of a register write -/

theorem writeClass_decodeGlobal (addr d : Byte) : writeClass (decodeGlobal addr d) = .pulse := by
  unfold decodeGlobal
  split <;> rfl

theorem writeClass_decodeSlot (bank : BitVec 1) (addr d d' : Byte) :
    writeClass (decodeSlot bank addr d) = writeClass (decodeSlot bank addr d') := by
  unfold decodeSlot
  dsimp only
  split <;> rfl

theorem writeClass_decodeChan (bank : BitVec 1) (addr d d' : Byte) :
    writeClass (decodeChan bank addr d) = writeClass (decodeChan bank addr d') := by
  unfold decodeChan
  dsimp only
  split
  case h_3 | h_4 => split <;> rfl
  all_goals rfl

/-- The event that carries a write out does not depend on the byte written. -/
theorem writeClass_decodeReg (w : BitVec 9) (d d' : Byte) :
    writeClass (decodeReg w d) = writeClass (decodeReg w d') := by
  unfold decodeReg
  dsimp only
  split
  · rw [writeClass_decodeGlobal, writeClass_decodeGlobal]
  split
  · exact writeClass_decodeSlot _ _ d d'
  split
  · exact writeClass_decodeChan _ _ d d'
  · rfl

/-! ### The pending write -/

namespace State

/-- The class of the captured address decides, and with it the event to wait for and the byte to write. -/
theorem pendingWrite_eq (s : State) (d : Byte) :
    s.pendingWrite =
      if s.cur.writeOccurs (writeClass (decodeReg s.regWordCur d)) then
        some (decodeReg s.regWordCur (s.writeByte (writeClass (decodeReg s.regWordCur d))))
      else none := by
  rw [writeClass_decodeReg s.regWordCur d 0, pendingWrite]
  cases writeClass (decodeReg s.regWordCur 0) <;> rfl

/-- What a pending write is: its event occurs, and it is the captured address decoded with the byte of its class. -/
theorem of_pendingWrite {s : State} {i : Instr} (h : s.pendingWrite = some i) :
    s.cur.writeOccurs (writeClass i) = true ∧ i = decodeReg s.regWordCur (s.writeByte (writeClass i)) := by
  rw [pendingWrite_eq s 0] at h
  split at h
  · next hoccurs =>
    cases h
    rw [writeClass_decodeReg s.regWordCur _ 0]
    exact ⟨hoccurs, rfl⟩
  · cases h

theorem writeOccurs_of_pendingWrite {s : State} {i : Instr} (h : s.pendingWrite = some i) :
    s.cur.writeOccurs (writeClass i) = true :=
  (of_pendingWrite h).1

theorem pendingWrite_wf {s : State} {i : Instr} (h : s.pendingWrite = some i) : i.wf = true := by
  rw [(of_pendingWrite h).2]
  exact decodeReg_wf _ _

/-- The register word of a pending write is the captured address. -/
theorem captured_of_pendingWrite {s : State} {i : Instr} (h : s.pendingWrite = some i) {bank : BitVec 1} {addr d : Byte}
    (hword : encodeWord i = .reg (regWord bank addr) d) : s.cur.bus.regBank = bank ∧ s.cur.bus.regAddr = addr := by
  rw [(of_pendingWrite h).2, encodeWord_decodeReg] at hword
  injection hword with hw
  exact regWord_eq_iff.mp hw

theorem phase1Step_of_pendingWrite {s : State} {i : Instr} (h : s.pendingWrite = some i) :
    phase1Step s = andThen (exec i s.phase1) fun t => .next t.forceReset := by
  rw [phase1Step, h]

theorem phase1Step_of_no_write {s : State} (h : s.pendingWrite = none) : phase1Step s = .next s.phase1.forceReset := by
  rw [phase1Step, h]
  rfl

end State

/-- Settles O6: the decoded instruction is the pending write, if the event of its class occurs. -/
theorem tickRunsRegisterWrite : Obligations.TickRunsRegisterWrite := by
  intro s j d hdecode hbyte
  rw [decode_regWord] at hdecode
  have hj : decodeReg s.regWordCur d = j := Except.ok.inj hdecode
  have hpending := s.pendingWrite_eq d
  rw [hj, ← hbyte, hj] at hpending
  constructor
  · intro hoccurs
    rw [if_pos hoccurs] at hpending
    exact State.phase1Step_of_pendingWrite hpending
  · intro hoccurs
    rw [hoccurs] at hpending
    exact State.phase1Step_of_no_write hpending

/-! ### What a register write can change in the three register files -/

/-- What holds of the channel file and of every result of the write function holds of the file written. -/
theorem State.writeChan_induction {P : ChanRegs → Prop} {n : Nat} {s : State} (k : Option (Fin n))
    {f : Fin n → ChanRegs → ChanRegs} (hold : P s.nxt.chan) (hf : ∀ j, P (f j s.nxt.chan)) :
    P (s.writeChan k f).nxt.chan := by
  cases k with
  | none => exact hold
  | some j => exact hf j

theorem writeSlot_nxt_chan (s : State) (k : Option (Fin 24)) (f : Fin 24 → SlotRegs → SlotRegs) :
    (s.writeSlot k f).nxt.chan = s.nxt.chan := by rw [writeSlot_frame]

theorem writeSlot_nxt_glob (s : State) (k : Option (Fin 24)) (f : Fin 24 → SlotRegs → SlotRegs) :
    (s.writeSlot k f).nxt.glob = s.nxt.glob := by rw [writeSlot_frame]

theorem writeChan_nxt_slot {n : Nat} (s : State) (k : Option (Fin n)) (f : Fin n → ChanRegs → ChanRegs) :
    (s.writeChan k f).nxt.slot = s.nxt.slot := by rw [writeChan_frame]

theorem writeChan_nxt_glob {n : Nat} (s : State) (k : Option (Fin n)) (f : Fin n → ChanRegs → ChanRegs) :
    (s.writeChan k f).nxt.glob = s.nxt.glob := by rw [writeChan_frame]

/-- A file that holds holds up to its latches. -/
theorem ChanRegs.eq_up_to_latches {g g' : ChanRegs} (h : g = g') :
    g = { g' with fhiLatch := g.fhiLatch, fhi3Latch := g.fhi3Latch } := by
  subst h
  rfl

/-- Only the writes of R174 to R180 reach the operator-slot file. -/
theorem execTo_slot {i : Instr} (h : writeClass i ≠ .operator) (s : State) : (execTo i s).nxt.slot = s.nxt.slot := by
  cases i
  case dtMul | tl | ksAr | amDr | sr | slRr | ssgeg => exact absurd rfl h
  case fnumLo | fnumHi | fnum3Lo | fnum3Hi | fbAlg | panLfo => exact writeChan_nxt_slot s _ _
  all_goals rfl

/-- Without a channel match, a write reaches the two holding latches of the channel file only. -/
theorem execTo_chan {i : Instr} (h : writeClass i ≠ .channel) (s : State) :
    (execTo i s).nxt.chan =
      { s.nxt.chan with
        fhiLatch := (execTo i s).nxt.chan.fhiLatch
        fhi3Latch := (execTo i s).nxt.chan.fhi3Latch } := by
  cases i
  case fnumLo | fnum3Lo | fbAlg | panLfo => exact absurd rfl h
  case fnumHi | fnum3Hi =>
    exact State.writeChan_induction _
      (P := fun g => g = { s.nxt.chan with fhiLatch := g.fhiLatch, fhi3Latch := g.fhi3Latch }) rfl fun _ => rfl
  case dtMul | tl | ksAr | amDr | sr | slRr | ssgeg => exact ChanRegs.eq_up_to_latches (writeSlot_nxt_chan s _ _)
  all_goals rfl

/-- Only `FNUM_HI` writes the holding latch (R182). -/
theorem execTo_fhiLatch {i : Instr} (h : ∀ bank cib d, i ≠ .fnumHi bank cib d) (s : State) :
    (execTo i s).nxt.chan.fhiLatch = s.nxt.chan.fhiLatch := by
  cases i
  case fnumHi bank cib d => exact absurd rfl (h bank cib d)
  case fnumLo | fnum3Lo | fnum3Hi | fbAlg | panLfo =>
    exact State.writeChan_induction _ (P := fun g => g.fhiLatch = s.nxt.chan.fhiLatch) rfl fun _ => rfl
  case dtMul | tl | ksAr | amDr | sr | slRr | ssgeg => exact congrArg ChanRegs.fhiLatch (writeSlot_nxt_chan s _ _)
  all_goals rfl

/-- Only `FNUM3_HI` writes the holding latch of the special channel (R184). -/
theorem execTo_fhi3Latch {i : Instr} (h : ∀ cib d, i ≠ .fnum3Hi cib d) (s : State) :
    (execTo i s).nxt.chan.fhi3Latch = s.nxt.chan.fhi3Latch := by
  cases i
  case fnum3Hi cib d => exact absurd rfl (h cib d)
  case fnumLo | fnumHi | fnum3Lo | fbAlg | panLfo =>
    exact State.writeChan_induction _ (P := fun g => g.fhi3Latch = s.nxt.chan.fhi3Latch) rfl fun _ => rfl
  case dtMul | tl | ksAr | amDr | sr | slRr | ssgeg => exact congrArg ChanRegs.fhi3Latch (writeSlot_nxt_chan s _ _)
  all_goals rfl

/-- The instruction is a register write to one of the addresses of R86. -/
def IsGlobalWrite (i : Instr) : Prop :=
  writeClass i = .pulse
    ∧ ∃ addr d : Byte, encodeWord i = .reg (regWord 0 addr) d ∧ 0x21 ≤ addr.toNat ∧ addr.toNat ≤ 0x2C

/-- Only a write to an address of R86 reaches the global registers. -/
theorem execTo_glob {i : Instr} (h : ¬IsGlobalWrite i) (s : State) : (execTo i s).nxt.glob = s.nxt.glob := by
  cases i
  case test1 | lfo | reserved23 | taHi | taLo | tb | mode | keyon | reserved29 | dacdata | dacen | test2 =>
    exact absurd ⟨rfl, _, _, rfl, by decide, by decide⟩ h
  case dtMul | tl | ksAr | amDr | sr | slRr | ssgeg => exact writeSlot_nxt_glob s _ _
  case fnumLo | fnumHi | fnum3Lo | fnum3Hi | fbAlg | panLfo => exact writeChan_nxt_glob s _ _
  all_goals rfl

/-! ### The register files in a tick (R146, R147, R160) -/

namespace State

theorem written_induction {P : State → Prop} {s : State} (hold : P s.phase1)
    (hwrite : ∀ i, s.pendingWrite = some i → P (execTo i s.phase1)) : P s.written := by
  unfold written
  split
  · next i h => exact hwrite i h
  · exact hold

/-- A pending write is of no class whose event does not occur. -/
theorem writeClass_ne_of_pendingWrite {s : State} {i : Instr} (h : s.pendingWrite = some i) {c : WriteClass}
    (hc : s.cur.writeOccurs c = false) : writeClass i ≠ c := by
  rintro rfl
  rw [writeOccurs_of_pendingWrite h] at hc
  cases hc

theorem written_slot {s : State} (h : operatorMatch s.cur = false) : s.written.nxt.slot = s.cur.slot :=
  written_induction (P := fun t => t.nxt.slot = s.cur.slot) rfl fun _ hi =>
    execTo_slot (writeClass_ne_of_pendingWrite hi h) s.phase1

theorem written_chan {s : State} (h : channelMatch s.cur = false) :
    s.written.nxt.chan =
      { s.cur.chan with fhiLatch := s.written.nxt.chan.fhiLatch, fhi3Latch := s.written.nxt.chan.fhi3Latch } :=
  written_induction (P := fun t => t.nxt.chan =
      { s.cur.chan with fhiLatch := t.nxt.chan.fhiLatch, fhi3Latch := t.nxt.chan.fhi3Latch }) rfl fun _ hi =>
    execTo_chan (writeClass_ne_of_pendingWrite hi h) s.phase1

/-- R182: the holding latch waits for a pulse at one of the addresses 0xA4 to 0xA6. -/
theorem written_fhiLatch {s : State}
    (h : ¬(globalPulse s.cur = true ∧ s.cur.bus.regAddr.toNat / 4 = 0x29 ∧ s.cur.bus.regAddr.toNat % 4 ≠ 3)) :
    s.written.nxt.chan.fhiLatch = s.cur.chan.fhiLatch := by
  refine written_induction (P := fun t => t.nxt.chan.fhiLatch = s.cur.chan.fhiLatch) rfl fun i hi =>
    execTo_fhiLatch (fun bank cib d hfnum => h ?_) s.phase1
  subst hfnum
  obtain ⟨-, haddr⟩ := captured_of_pendingWrite hi rfl
  have hcib : cib ≠ 3 := bne_iff_ne.mp (pendingWrite_wf hi)
  rw [haddr]
  exact ⟨writeOccurs_of_pendingWrite hi, fieldAddr_div_4 _ _ _, fieldAddr_mod_4_ne hcib _ _⟩

/-- R184: the special channel's waits for a pulse at one of 0xAC to 0xAE of bank 0. -/
theorem written_fhi3Latch {s : State}
    (h : ¬(globalPulse s.cur = true ∧ s.cur.bus.regAddr.toNat / 4 = 0x2B ∧ s.cur.bus.regAddr.toNat % 4 ≠ 3
      ∧ s.cur.bus.regBank = 0)) :
    s.written.nxt.chan.fhi3Latch = s.cur.chan.fhi3Latch := by
  refine written_induction (P := fun t => t.nxt.chan.fhi3Latch = s.cur.chan.fhi3Latch) rfl fun i hi =>
    execTo_fhi3Latch (fun cib d hfnum => h ?_) s.phase1
  subst hfnum
  obtain ⟨hbank, haddr⟩ := captured_of_pendingWrite hi rfl
  have hcib : cib ≠ 3 := bne_iff_ne.mp (pendingWrite_wf hi)
  rw [haddr]
  exact ⟨writeOccurs_of_pendingWrite hi, fieldAddr_div_4 _ _ _, fieldAddr_mod_4_ne hcib _ _, hbank⟩

/-- R160: the global registers wait for a pulse at one of the addresses of R86, but for the requests that clear themselves
(R338). -/
theorem written_glob {s : State}
    (h : ¬(globalPulse s.cur = true ∧ 0x21 ≤ s.cur.bus.regAddr.toNat ∧ s.cur.bus.regAddr.toNat ≤ 0x2C
      ∧ s.cur.bus.regBank = 0)) :
    s.written.nxt.glob = globNext s.cur := by
  refine written_induction (P := fun t => t.nxt.glob = globNext s.cur) rfl fun i hi =>
    execTo_glob (fun hglobal => h ?_) s.phase1
  obtain ⟨hclass, addr, d, hword, hlo, hhi⟩ := hglobal
  obtain ⟨hbank, haddr⟩ := captured_of_pendingWrite hi hword
  have hpulse := writeOccurs_of_pendingWrite hi
  rw [hclass] at hpulse
  rw [haddr]
  exact ⟨hpulse, hlo, hhi, hbank⟩

/-- The register files a tick out of reset leaves are those after its register write. -/
theorem stepTo_nxt_of_run {s : State} (h : s.tickStarts = true) (hi : s.cur.rst.ic = false) :
    s.stepTo.nxt = s.afterBus.written.nxt := by
  rw [stepTo_nxt, afterTick_nxt_of_run h hi]

end State

/-! ### The pipelines off the front (R142, R203) -/

section OffFront

variable (c : Config) (e : FsmRec) {r : Regs}

theorem ne_of_visited {k s : Fin 24} (hk : r.frontSlot ≠ some k) (hv : visited e r = some s) : k ≠ s := by
  rintro rfl
  exact hk (visited_front hv)

theorem ne_chanOf_of_visited {ch : Fin 6} (hch : ∀ k, r.frontSlot = some k → chanOf k ≠ ch) {s : Fin 24}
    (hv : visited e r = some s) : ch ≠ chanOf s :=
  (hch s (visited_front hv)).symm

/-- The phase generator (R230). -/
theorem pgNext_of_not_front {k : Fin 24} (hk : r.frontSlot ≠ some k) :
    (pgNext c e r).phase[k] = r.pg.phase[k] ∧ (pgNext c e r).inc[k] = r.pg.inc[k]
      ∧ (pgNext c e r).reset[k] = r.pg.reset[k] := by
  unfold pgNext
  split
  · exact ⟨rfl, rfl, rfl⟩
  · next s hv =>
    have hne := ne_of_visited e hk hv
    exact ⟨setAt_get_other _ _ hne, setAt_get_other _ _ hne, setAt_get_other _ _ hne⟩

/-- The global timer of the envelope generator is no slot's. -/
theorem egGlobalNext_frame (g : EgRegs) :
    ∃ q t sh lo, egGlobalNext c e g = { g with quot := q, timer := t, shiftLock := sh, lowLock := lo } := by
  unfold egGlobalNext
  split
  · dsimp only
    split <;> exact ⟨_, _, _, _, rfl⟩
  · exact ⟨_, _, _, _, rfl⟩

/-- The envelope generator (R250). -/
theorem egNext_of_not_front {k : Fin 24} (hk : r.frontSlot ≠ some k) :
    (egNext c e r).level[k] = r.eg.level[k] ∧ (egNext c e r).state[k] = r.eg.state[k]
      ∧ (egNext c e r).out[k] = r.eg.out[k] ∧ (egNext c e r).ssgDir[k] = r.eg.ssgDir[k]
      ∧ (egNext c e r).ssgInv[k] = r.eg.ssgInv[k] ∧ (egNext c e r).ssgPgrst[k] = r.eg.ssgPgrst[k]
      ∧ (egNext c e r).ssgRepeat[k] = r.eg.ssgRepeat[k] ∧ (egNext c e r).ssgHoldup[k] = r.eg.ssgHoldup[k] := by
  obtain ⟨_, _, _, _, hglobal⟩ := egGlobalNext_frame c e r.eg
  unfold egNext
  dsimp only
  rw [hglobal]
  split
  · exact ⟨rfl, rfl, rfl, rfl, rfl, rfl, rfl, rfl⟩
  · next s hv =>
    have hne := ne_of_visited e hk hv
    exact ⟨setAt_get_other _ _ hne, setAt_get_other _ _ hne, setAt_get_other _ _ hne, setAt_get_other _ _ hne,
      setAt_get_other _ _ hne, setAt_get_other _ _ hne, setAt_get_other _ _ hne, setAt_get_other _ _ hne⟩

/-- The operator outputs (R290). -/
theorem opNext_opOut_of_not_front {k : Fin 24} (hk : r.frontSlot ≠ some k) :
    (opNext c e r).opOut[k] = r.op.opOut[k] := by
  unfold opNext
  split
  · rfl
  · next s hv => exact setAt_get_other _ _ (ne_of_visited e hk hv)

theorem konRegNext_get_other {k s : Fin 24} (h : k ≠ s) : (konRegNext r s)[k] = r.key.konReg[k] := by
  unfold konRegNext
  split
  · exact setAt_get_other _ _ h
  · rfl

/-- The key history and the key-on distribution (R253). -/
theorem keyNext_of_not_front {k : Fin 24} (hk : r.frontSlot ≠ some k) :
    (keyNext e r).konReg[k] = r.key.konReg[k] ∧ (keyNext e r).konLatch[k] = r.key.konLatch[k]
      ∧ (keyNext e r).konPrev[k] = r.key.konPrev[k] ∧ (keyNext e r).konCsm[k] = r.key.konCsm[k] := by
  unfold keyNext
  dsimp only
  split
  · exact ⟨rfl, rfl, rfl, rfl⟩
  · next s hv =>
    have hne := ne_of_visited e hk hv
    exact ⟨konRegNext_get_other hne, setAt_get_other _ _ hne, setAt_get_other _ _ hne, setAt_get_other _ _ hne⟩

/-- The feedback history (R290). -/
theorem opNext_op1Prev_of_not_front {ch : Fin 6} (hch : ∀ k, r.frontSlot = some k → chanOf k ≠ ch) :
    (opNext c e r).op1Prev[ch] = r.op.op1Prev[ch] := by
  unfold opNext
  split
  · rfl
  · next s hv =>
    dsimp only
    split
    · exact setAt_get_other _ _ (ne_chanOf_of_visited e hch hv)
    · rfl

/-- The accumulators (R310). -/
theorem accNext_of_not_front {ch : Fin 6} (hch : ∀ k, r.frontSlot = some k → chanOf k ≠ ch) :
    (accNext c e r).chAcc[ch] = r.acc.chAcc[ch] ∧ (accNext c e r).chOut[ch] = r.acc.chOut[ch] := by
  rw [accNext_chAcc_eq, accNext_chOut_eq]
  unfold chAccNext
  split
  · exact ⟨rfl, rfl⟩
  · next s hv =>
    have hne := ne_chanOf_of_visited e hch hv
    dsimp only
    split
    · exact ⟨setAt_get_other _ _ hne, setAt_get_other _ _ hne⟩
    · exact ⟨setAt_get_other _ _ hne, rfl⟩

end OffFront

/-- Settles O34: the pipelines change what they visit and visit the front slot only; the register files change by the pending
write only, whose event and address are those of its class. -/
theorem onlyFrontSlotChanges : Obligations.OnlyFrontSlotChanges := by
  intro s htick hrun
  refine ⟨s.stepTo, s.step_eq, fun k hk => ?_, fun ch hch => ?_, ?_⟩
  · rw [State.stepTo_nxt_pg htick hrun, State.stepTo_nxt_eg htick hrun, State.stepTo_nxt_op htick hrun,
      State.stepTo_nxt_key htick hrun]
    obtain ⟨hphase, hinc, hreset⟩ := pgNext_of_not_front s.cfg (enables s.cfg s.cur) hk
    obtain ⟨hlevel, hstate, hout, hdir, hinv, hpgrst, hrepeat, hholdup⟩ :=
      egNext_of_not_front s.cfg (enables s.cfg s.cur) hk
    exact ⟨hphase, hinc, hreset, hlevel, hstate, hout, hdir, hinv, hpgrst, hrepeat, hholdup,
      opNext_opOut_of_not_front _ _ hk, keyNext_of_not_front _ hk⟩
  · rw [State.stepTo_nxt_op htick hrun, State.stepTo_nxt_acc htick hrun]
    exact ⟨opNext_op1Prev_of_not_front _ _ hch, accNext_of_not_front _ _ hch⟩
  · rw [State.stepTo_nxt_of_run htick hrun, ← s.afterBus_cur]
    exact ⟨State.written_slot, State.written_chan, State.written_fhiLatch, State.written_fhi3Latch, State.written_glob⟩

end Machine

end Sys2Proof
end

section
/-! The register writes (`spec/43_register_writes.md` R162 to R186): the element a slot or channel write selects, the fields a
global write sets, and the key-on distribution of R169. -/

namespace Sys2Proof.Machine

/-! ### The target of a slot or channel write (`30_encoding.md` R83) -/

theorem cib_lt_of_ne_gap {cib : BitVec 2} (h : cib ≠ 3) : cib.toNat < 3 := by
  have hgap := (cib_ne_gap_iff cib).mp h
  have hlt := cib.isLt
  omega

section Target

variable {cib : BitVec 2} (hcib : cib ≠ 3)
include hcib

theorem targetSlot_of_ne_gap (bank : BitVec 1) (pos : BitVec 2) :
    ∃ k : Fin 24, targetSlot bank pos cib = some k ∧ k.val = 6 * pos.toNat + (3 * bank.toNat + cib.toNat) :=
  ⟨_, dif_pos (cib_lt_of_ne_gap hcib), rfl⟩

theorem targetChan_of_ne_gap (bank : BitVec 1) :
    ∃ k : Fin 6, targetChan bank cib = some k ∧ k.val = 3 * bank.toNat + cib.toNat :=
  ⟨_, dif_pos (cib_lt_of_ne_gap hcib), rfl⟩

theorem targetSet_of_ne_gap : ∃ k : Fin 3, targetSet cib = some k ∧ k.val = cib.toNat :=
  ⟨_, dif_pos (cib_lt_of_ne_gap hcib), rfl⟩

end Target

/-- The write of one element is the write the statements speak of (R10), at the index that numbers it. -/
theorem setAt_writtenAt {α : Type} {n i : Nat} {k : Fin n} (hk : k.val = i) (v : Vector α n) (a : α) :
    WrittenAt v (setAt v k a) i a := by
  intro j
  rw [setAt_get]
  simp only [Fin.ext_iff, hk]

/-! ### A write with a target -/

theorem next_writeSlot {target : Option (Fin 24)} {k : Fin 24} (h : target = some k) (s : State)
    (f : Fin 24 → SlotRegs → SlotRegs) :
    (.next (s.writeSlot target f) : Host.Outcome State Fault Refusal)
      = .next { s with nxt := { s.nxt with slot := f k s.nxt.slot } } := by
  rw [h]
  rfl

theorem next_writeChan {n : Nat} {target : Option (Fin n)} {k : Fin n} (h : target = some k) (s : State)
    (f : Fin n → ChanRegs → ChanRegs) :
    (.next (s.writeChan target f) : Host.Outcome State Fault Refusal)
      = .next { s with nxt := { s.nxt with chan := f k s.nxt.chan } } := by
  rw [h]
  rfl

/-- Settles O17: each write has a target, whose number is the index of the statement, and sets one element of each of its
arrays. -/
theorem slotWritesComplete : Obligations.SlotWritesComplete := by
  intro bank pos cib d s hcib
  obtain ⟨k, htarget, hk⟩ := targetSlot_of_ne_gap hcib bank pos
  have hwrite := next_writeSlot htarget s
  refine ⟨⟨_, _, hwrite _, ?_, ?_⟩, ⟨_, hwrite _, ?_⟩, ⟨_, _, hwrite _, ?_, ?_⟩, ⟨_, _, hwrite _, ?_, ?_⟩,
    ⟨_, hwrite _, ?_⟩, ⟨_, _, hwrite _, ?_, ?_⟩, ⟨_, hwrite _, ?_⟩⟩
  all_goals exact setAt_writtenAt hk _ _

/-- Settles O18: as for the slots, with the set of the special channel as a second kind of target; a holding latch is written
whichever channel is the target. -/
theorem channelWritesComplete : Obligations.ChannelWritesComplete := by
  intro bank cib d s hcib
  obtain ⟨k, htarget, hk⟩ := targetChan_of_ne_gap hcib bank
  obtain ⟨i, hset, hi⟩ := targetSet_of_ne_gap hcib
  have hwrite := next_writeChan htarget s
  have hwrite3 := next_writeChan hset s
  refine ⟨⟨_, _, hwrite _, ?_, ?_⟩, ⟨_, _, hwrite3 _, setAt_writtenAt hi _ _, setAt_writtenAt hi _ _⟩,
    ⟨_, _, hwrite _, ?_, ?_⟩, ⟨_, _, _, _, hwrite _, ?_, ?_, ?_, ?_⟩, hwrite _, hwrite3 _⟩
  all_goals exact setAt_writtenAt hk _ _

/-! ### Key-on distribution (R169) -/

theorem konRegNext_get_same (r : Regs) (k : Fin 24) :
    (konRegNext r k)[k] =
      if konCode (chanOf k) = r.glob.konCh.toNat then r.glob.konOp.getLsbD (kbit (posOf k)) else r.key.konReg[k] := by
  unfold konRegNext
  split
  · exact setAt_get_same _ _ _
  · rfl

theorem keyNext_konReg_of_visited {e : FsmRec} {r : Regs} {k : Fin 24} (h : visited e r = some k) :
    (keyNext e r).konReg = konRegNext r k := by
  rw [keyNext, h]

/-- The operator-select pulse of the front slot is 1 in a machine that meets the invariant (R202, R205). -/
theorem State.Inv.visited_eq_front {s : State} (h : s.Inv) : visited (enables s.cfg s.cur) s.cur = s.cur.frontSlot := by
  obtain ⟨hcnt1, hcnt2⟩ := h.cur.locked
  exact visited_eq (Config.fsmOk_of_wf h.cfg) hcnt1 hcnt2

/-- Settles O35: the front slot is visited and takes its bit of the mask, no other slot's key-on register changes. -/
theorem keyOnDistribution : Obligations.KeyOnDistribution := by
  intro s hinv htick hrun
  refine ⟨s.stepTo, s.step_eq, fun k => ?_⟩
  rw [State.stepTo_nxt_key htick hrun]
  by_cases hfront : s.cur.frontSlot = some k
  · have hvisited : visited (enables s.cfg s.cur) s.cur = some k := hinv.visited_eq_front.trans hfront
    simp only [hfront, true_and]
    rw [keyNext_konReg_of_visited hvisited]
    exact konRegNext_get_same s.cur k
  · obtain ⟨hheld, -, -, -⟩ := keyNext_of_not_front (enables s.cfg s.cur) hfront
    rw [if_neg fun h => hfront h.1]
    exact hheld

/-! ### Global writes (R162 to R172) -/

/-- Settles O14: each of the seven is one write of the global record, by the definition of its instruction. -/
theorem plainGlobalWritesComplete : Obligations.PlainGlobalWritesComplete := by
  intro d s
  exact ⟨rfl, rfl, rfl, rfl, rfl, rfl, rfl⟩

/-- R164: the byte over the lower two bits. -/
theorem taReload_hi_toNat (d : Byte) (v : BitVec 10) : (d ++ v.extractLsb' 0 2).toNat = 4 * d.toNat + v.toNat % 4 := by
  rw [BitVec.toNat_append, BitVec.extractLsb'_toNat, Nat.shiftRight_zero,
    ← Nat.shiftLeft_add_eq_or_of_lt (Nat.mod_lt _ (by decide)), Nat.shiftLeft_eq]
  omega

/-- R165: the upper eight bits over two bits of the byte. -/
theorem taReload_lo_toNat (v : BitVec 10) (d : Byte) :
    (v.extractLsb' 2 8 ++ field d 0 2).toNat = 4 * (v.toNat / 4) + d.toNat % 4 := by
  have hv := v.isLt
  rw [BitVec.toNat_append, field, BitVec.extractLsb'_toNat, BitVec.extractLsb'_toNat, Nat.shiftRight_zero,
    ← Nat.shiftLeft_add_eq_or_of_lt (Nat.mod_lt _ (by decide)), Nat.shiftLeft_eq, Nat.shiftRight_eq_div_pow]
  omega

/-- Settles O15: the reload value is put together from the byte and the `cur` half, read as numbers. -/
theorem timerReloadWritesComplete : Obligations.TimerReloadWritesComplete := by
  intro d s
  exact ⟨⟨_, rfl, taReload_hi_toNat d _⟩, ⟨_, rfl, taReload_lo_toNat _ d⟩⟩

/-- Settles O16: one write of the global record, by the definition of `MODE`. -/
theorem modeWriteCompletes : Obligations.ModeWriteCompletes := by
  intro d s
  rfl

end Sys2Proof.Machine
end

section
/-! The two-level counters of the sequencer and of the scan (`spec/44_timing_sequencer.md` R200, R201), as numbers. -/

namespace Sys2Proof.Machine

theorem cnt1Next_toNat (x : BitVec 2) : (cnt1Next x).toNat = (x.toNat + 1) % 4 := BitVec.toNat_add x 1

theorem cnt2Next_toNat (x : BitVec 2) (y : BitVec 3) :
    (cnt2Next x y).toNat = if x.toNat = 3 then (y.toNat + 1) % 8 else y.toNat := by
  have hlast : x = 3 ↔ x.toNat = 3 := BitVec.toNat_inj.symm
  simp only [cnt2Next, hlast, apply_ite BitVec.toNat]
  rfl

/-- A counter half that is cleared while `b` holds. -/
theorem cleared_toNat {w : Nat} (b : Bool) (x : BitVec w) :
    (if b then 0 else x).toNat = if b then 0 else x.toNat := by
  rw [apply_ite BitVec.toNat, BitVec.ofNat_eq_ofNat, BitVec.toNat_zero]

/-- R200: the sequencer counter counts modulo 4 and 8 and is cleared by `fsm_reset`. -/
theorem scanNext_fsm_toNat (c : Config) (e : FsmRec) (r : Regs) :
    (scanNext c e r).fsmCnt1.toNat = (if fsmReset c r then 0 else (r.scan.fsmCnt1.toNat + 1) % 4)
      ∧ (scanNext c e r).fsmCnt2.toNat =
        (if fsmReset c r then 0 else
          if r.scan.fsmCnt1.toNat = 3 then (r.scan.fsmCnt2.toNat + 1) % 8 else r.scan.fsmCnt2.toNat) := by
  rw [← cnt1Next_toNat, ← cnt2Next_toNat]
  exact ⟨cleared_toNat _ _, cleared_toNat _ _⟩

/-- R201: the scan position counts in the same way and is cleared by the restart pulse too. -/
theorem scanNext_reg_toNat (c : Config) (e : FsmRec) (r : Regs) :
    (scanNext c e r).regCnt1.toNat = (if fsmReset c r || e.restart then 0 else (r.scan.regCnt1.toNat + 1) % 4)
      ∧ (scanNext c e r).regCnt2.toNat =
        (if fsmReset c r || e.restart then 0 else
          if r.scan.regCnt1.toNat = 3 then (r.scan.regCnt2.toNat + 1) % 8 else r.scan.regCnt2.toNat) := by
  rw [← cnt1Next_toNat, ← cnt2Next_toNat]
  exact ⟨cleared_toNat _ _, cleared_toNat _ _⟩

/-- Settles O24: phase 1 leaves `scanNext` of the tick's `cur` halves, in reset too, for the forcing of R360 spares the
counters; the record is the table's by the definition of `enables`. -/
theorem countersAdvance : Obligations.CountersAdvance := by
  intro s htick
  refine ⟨s.stepTo, s.step_eq, ?_⟩
  rw [State.stepTo_nxt_scan htick]
  obtain ⟨hfsm1, hfsm2⟩ := scanNext_fsm_toNat s.cfg (enables s.cfg s.cur) s.cur
  obtain ⟨hreg1, hreg2⟩ := scanNext_reg_toNat s.cfg (enables s.cfg s.cur) s.cur
  exact ⟨rfl, hfsm1, hfsm2, hreg1, hreg2⟩

end Sys2Proof.Machine
end

section
/-! The low-frequency oscillator (`spec/45_lfo.md`): what a tick makes of its counters, and the values read off its output. -/

namespace Sys2Proof.Machine

/-! ### The counters (R220 to R224) -/

/-- `t_lfo_hold` is bit 1 of `test21` (R130). -/
theorem tLfoHold_eq (r : Regs) : r.tLfoHold = r.glob.test21[1] := rfl

/-- R220: the fast counter is at its period when it has every bit of the table entry. -/
theorem lfoAtPeriod_iff (c : Config) (r : Regs) :
    lfoAtPeriod c r = true ↔
      r.lfo.quot.toNat &&& c.lfoPeriod.getD r.glob.lfoFreq.toNat 0 = c.lfoPeriod.getD r.glob.lfoFreq.toNat 0 :=
  beq_iff_eq

theorem lfoNext_of_atPeriod {c : Config} {e : FsmRec} {r : Regs} (hrestart : e.restart = true)
    (hhold : r.glob.test21[1] = false) (hperiod : lfoAtPeriod c r = true) :
    (lfoNext c e r).quot = 0 ∧ (lfoNext c e r).wrap = true := by
  simp [lfoNext, tLfoHold_eq, hrestart, hhold, hperiod]

theorem lfoNext_of_not_atPeriod {c : Config} {e : FsmRec} {r : Regs} (hrestart : e.restart = true)
    (hhold : r.glob.test21[1] = false) (hperiod : ¬ lfoAtPeriod c r = true) :
    (lfoNext c e r).quot = r.lfo.quot + 1 ∧ (lfoNext c e r).wrap = false := by
  simp [lfoNext, tLfoHold_eq, hrestart, hhold, hperiod]

/-- Off the restart pulse, and under the hold bit, the fast counter stands. -/
theorem lfoNext_of_not_counting (c : Config) {e : FsmRec} {r : Regs}
    (h : e.restart = false ∨ r.glob.test21[1] = true) :
    (lfoNext c e r).quot = r.lfo.quot ∧ (lfoNext c e r).wrap = false := by
  obtain hrestart | hhold := h
  · simp [lfoNext, hrestart]
  · simp [lfoNext, tLfoHold_eq, hhold]

theorem lfoNext_cnt_of_disabled (c : Config) (e : FsmRec) {r : Regs} (hen : r.glob.lfoEn = false) :
    (lfoNext c e r).cnt = 0 := by
  simp [lfoNext, hen]

/-- R222: the 7-bit slow counter counts the wraps of the fast one. -/
theorem lfoNext_cnt_toNat_of_enabled (c : Config) (e : FsmRec) {r : Regs} (hen : r.glob.lfoEn = true) :
    (lfoNext c e r).cnt.toNat = if r.lfo.wrap then (r.lfo.cnt.toNat + 1) % 128 else r.lfo.cnt.toNat := by
  rw [lfoNext, if_pos hen, apply_ite BitVec.toNat, BitVec.toNat_add]
  rfl

theorem lfoNext_out (c : Config) (e : FsmRec) (r : Regs) :
    (lfoNext c e r).out = if e.restart then r.lfo.cnt else r.lfo.out := rfl

/-- Settles O41: a tick out of reset leaves `lfoNext` of its `cur` halves, whose fast counter wraps, counts or stands. -/
theorem lfoCounts : Obligations.LfoCounts := by
  intro s htick hrun
  refine ⟨s.stepTo, s.step_eq, ?_⟩
  rw [State.stepTo_nxt_lfo htick hrun]
  refine ⟨fun hrestart hhold hperiod => ?_, fun hrestart hhold hperiod => ?_, lfoNext_of_not_counting s.cfg,
    lfoNext_cnt_of_disabled s.cfg _, lfoNext_cnt_toNat_of_enabled s.cfg _, lfoNext_out _ _ _⟩
  · exact lfoNext_of_atPeriod hrestart hhold ((lfoAtPeriod_iff _ _).mpr hperiod)
  · obtain ⟨hquot, hwrap⟩ := lfoNext_of_not_atPeriod hrestart hhold (mt (lfoAtPeriod_iff s.cfg _).mp hperiod)
    rw [hquot]
    exact ⟨BitVec.toNat_add _ _, hwrap⟩

/-! ### Vibrato and tremolo (R225) -/

theorem lfoPm_toNat (o : BitVec 7) : (lfoPm o).toNat = o.toNat / 4 := by
  rw [lfoPm, BitVec.extractLsb'_toNat, Nat.shiftRight_eq_div_pow]
  omega

/-- Inverting the low `n` bits of a number that has no others takes it from the greatest one. -/
theorem xor_two_pow_sub_one {x n : Nat} (h : x < 2 ^ n) : x ^^^ (2 ^ n - 1) = 2 ^ n - (x + 1) := by
  apply Nat.eq_of_testBit_eq
  intro i
  rw [Nat.testBit_xor, Nat.testBit_two_pow_sub_one, Nat.testBit_two_pow_sub_succ h]
  by_cases hi : i < n
  · simp [hi]
  · have hhigh : x.testBit i = false :=
      Nat.testBit_lt_two_pow (h.trans_le (Nat.pow_le_pow_right (by decide) (not_lt.mp hi)))
    simp [hi, hhigh]

/-- The triangle rises with the low six bits while the top bit is set. -/
theorem lfoAm_of_rising {o : BitVec 7} (h : o[6] = true) : lfoAm o = 2 * (o &&& 0x3F).toNat := by
  have hmask : (o &&& 0x3F).toNat = o.toNat % 64 := Nat.and_two_pow_sub_one_eq_mod o.toNat 6
  rw [lfoAm, BitVec.getLsbD_eq_getElem (by decide), if_pos h, hmask]

/-- The triangle falls with the low six bits, their complement doubled, while the top bit is clear. -/
theorem lfoAm_of_falling {o : BitVec 7} (h : o[6] = false) : lfoAm o = 2 * (o ^^^ 0x3F).toNat := by
  have hhalf : 2 * o.toNat < 2 ^ 7 := BitVec.msb_eq_false_iff_two_mul_lt.mp h
  have hlow : o.toNat < 2 ^ 6 := by omega
  have hinvert : (o ^^^ 0x3F).toNat = 64 - (o.toNat + 1) := xor_two_pow_sub_one hlow
  rw [lfoAm, BitVec.getLsbD_eq_getElem (by decide), if_neg (by simp [h]), hinvert]
  omega

/-- Tremolo is twice a six-bit number. -/
theorem lfoAm_eq_two_mul (o : BitVec 7) : ∃ q ≤ 63, lfoAm o = 2 * q := by
  refine ⟨_, ?_, rfl⟩
  split <;> omega

/-- Settles O42: the two halves of the triangle, and the bound that makes the reduction modulo 128 idle. -/
theorem lfoValues : Obligations.LfoValues := by
  intro o
  obtain ⟨q, hq, ham⟩ := lfoAm_eq_two_mul o
  refine ⟨lfoPm_toNat o, ?_, by omega, by omega⟩
  have htriangle : lfoAm o = 2 * (if o[6] then o &&& 0x3F else o ^^^ 0x3F).toNat := by
    split
    next h => exact lfoAm_of_rising h
    next h => exact lfoAm_of_falling (Bool.eq_false_of_not_eq_true h)
  omega

end Sys2Proof.Machine
end

section
/-! The phase generator (`spec/46_phase_generator.md`): the frequency pair of a slot, the steps of the increment as exact
arithmetic, and what a visit leaves in the phase and increment pairs. -/

namespace Sys2Proof.Machine

/-! ### Frequency selection (R231) -/

theorem specialFreq_iff (e : FsmRec) (r : Regs) :
    specialFreq e r = true ↔ r.glob.ch3Mode ≠ 0 ∧ e.ch3Sel = true := by
  rw [specialFreq, Bool.and_eq_true, bne_iff_ne]

/-- A position with a set of its own takes it while the special sets are selected. -/
theorem freqOf_of_special {e : FsmRec} {r : Regs} {k : Fin 24} {i : Fin 3} (hspecial : specialFreq e r = true)
    (hset : specialSet (posOf k) = some i) : freqOf e r k = (r.chan.fnum3[i], r.chan.block3[i]) := by
  simp only [freqOf, hspecial, hset, if_true]

/-- Without the special sets, and at the position without a set, a slot takes the pair of its channel. -/
theorem freqOf_of_normal {e : FsmRec} {r : Regs} {k : Fin 24}
    (h : specialFreq e r = false ∨ specialSet (posOf k) = none) :
    freqOf e r k = (r.chan.fnum[chanOf k], r.chan.block[chanOf k]) := by
  obtain hspecial | hset := h
  · simp only [freqOf, hspecial, Bool.false_eq_true, if_false]
  · simp only [freqOf, hset, ite_self]

/-- The set of each position: OP1 set 1, OP3 set 0, OP2 set 2, OP4 none. -/
theorem specialSet_posOf (k : Fin 24) :
    specialSet (posOf k) = if k.val / 6 = 0 then some 1 else if k.val / 6 = 1 then some 0
      else if k.val / 6 = 2 then some 2 else none := by
  decide +revert

/-- Settles O45: each of the first three positions has a set, the fourth none. -/
theorem frequencySelection : Obligations.FrequencySelection := by
  intro e r k special c
  have hset := specialSet_posOf k
  have hiff : specialFreq e r = true ↔ special := specialFreq_iff e r
  refine ⟨fun hs hp => ?_, fun hs hp => ?_, fun hs hp => ?_, fun h => ?_⟩
  · exact freqOf_of_special (i := 1) (hiff.mpr hs) (by simp [hset, hp])
  · exact freqOf_of_special (i := 0) (hiff.mpr hs) (by simp [hset, hp])
  · exact freqOf_of_special (i := 2) (hiff.mpr hs) (by simp [hset, hp])
  · refine freqOf_of_normal (h.imp (fun hs => ?_) fun hp => by simp [hset, hp])
    exact Bool.eq_false_of_not_eq_true (mt hiff.mp hs)

/-! ### Narrowing, sign bits, table entries -/

theorem wrap_cast (w : Nat) (v : Int) : (wrap w v : Int) = v % 2 ^ w :=
  Int.toNat_of_nonneg (Int.emod_nonneg v (by positivity))

theorem wrap_of_lt {w n : Nat} (h : n < 2 ^ w) : wrap w n = n := by
  have hmod : ((n % 2 ^ w : Nat) : Int) = (n : Int) % 2 ^ w := by push_cast; rfl
  rw [wrap, ← hmod, Int.toNat_natCast, Nat.mod_eq_of_lt h]

theorem entry2_eq_getD (t : List (List Nat)) (i j : Nat) : entry2 t i j = (t.getD i []).getD j 0 := rfl

/-- The top bit of a word is set from the middle of its range on. -/
theorem getLsbD_top_iff {n : Nat} (x : BitVec (n + 1)) : x.getLsbD n = true ↔ 2 ^ n ≤ x.toNat := by
  have hmsb : x.msb = true ↔ 2 ^ (n + 1) ≤ 2 * x.toNat := BitVec.msb_eq_true_iff_two_mul_ge
  rw [BitVec.msb_eq_getLsbD_last, Nat.add_sub_cancel] at hmsb
  rw [hmsb, pow_succ]
  omega

/-- The sign of the vibrato is the top bit of `lfo_pm` (R234). -/
theorem pmSign_iff (pm : BitVec 5) : pm.getLsbD 4 = true ↔ 16 ≤ pm.toNat := getLsbD_top_iff pm

/-- The sign of the detune is the top bit of `dt` (R238). -/
theorem detuneNeg_iff (dt : BitVec 3) : detuneNeg dt = true ↔ 4 ≤ dt.toNat := getLsbD_top_iff dt

/-! ### Vibrato (R233, R234) -/

theorem vibratoIndex_lt (pm : BitVec 5) : vibratoIndex pm < 8 := by
  unfold vibratoIndex
  dsimp only
  split <;> omega

/-- R234: the two shifted parts of `fh`, the extra shift only for `v > 5`, which a truncated difference says at once. -/
theorem vibratoDepth_eq (c : Config) (f : BitVec 11) (pm : BitVec 5) (v : BitVec 3) :
    vibratoDepth c f pm v =
      (f.toNat / 16 / 2 ^ entry2 c.pmSh1 v.toNat (vibratoIndex pm)
        + f.toNat / 16 / 2 ^ entry2 c.pmSh2 v.toNat (vibratoIndex pm)) * 2 ^ (v.toNat - 5) / 4 := by
  simp only [vibratoDepth, Nat.shiftRight_eq_div_pow, Nat.shiftLeft_eq]
  split
  · rfl
  · next hv => rw [Nat.sub_eq_zero_of_le (not_lt.mp hv), pow_zero, mul_one]

theorem vibratoFreq_cast (c : Config) (f : BitVec 11) (pm : BitVec 5) (v : BitVec 3) :
    (vibratoFreq c f pm v : Int) =
      (if 16 ≤ pm.toNat then 2 * (f.toNat : Int) - vibratoDepth c f pm v
        else 2 * (f.toNat : Int) + vibratoDepth c f pm v) % 4096 := by
  simp only [vibratoFreq, wrap_cast, pmSign_iff]
  rfl

/-- A shift of 7 leaves nothing of the 7-bit `fh` (R235). -/
theorem vibratoDepth_of_shifts {c : Config} {pm : BitVec 5} {v : BitVec 3} (f : BitVec 11)
    (h1 : entry2 c.pmSh1 v.toNat (vibratoIndex pm) = 7) (h2 : entry2 c.pmSh2 v.toNat (vibratoIndex pm) = 7) :
    vibratoDepth c f pm v = 0 := by
  have hpart : f.toNat / 16 / 2 ^ 7 = 0 := by omega
  rw [vibratoDepth_eq, h1, h2, hpart, Nat.add_zero, Nat.zero_mul, Nat.zero_div]

theorem vibratoFreq_of_depth_zero {c : Config} {f : BitVec 11} {pm : BitVec 5} {v : BitVec 3}
    (h : vibratoDepth c f pm v = 0) : vibratoFreq c f pm v = 2 * f.toNat := by
  have hcast := vibratoFreq_cast c f pm v
  rw [h] at hcast
  split at hcast <;> omega

/-! ### Base frequency, detune, multiplier (R237 to R240) -/

theorem baseFreq_eq (f12 : Nat) (b : BitVec 3) : baseFreq f12 b = f12 * 2 ^ b.toNat / 4 := by
  rw [baseFreq, Nat.shiftLeft_eq]

/-- The base frequency has at most 17 bits (R237). -/
theorem baseFreq_lt {f12 : Nat} (h : f12 < 2 ^ 12) (b : BitVec 3) : baseFreq f12 b < 2 ^ 17 := by
  have hpow : 2 ^ b.toNat ≤ 2 ^ 7 := Nat.pow_le_pow_right (by decide) (Nat.le_of_lt_succ b.isLt)
  have hprod : f12 * 2 ^ b.toNat ≤ f12 * 2 ^ 7 := Nat.mul_le_mul_left f12 hpow
  rw [baseFreq_eq]
  omega

/-- R239: the offset of the detune amount is 0, 2, 3 for the amounts 1, 2, 3. -/
theorem detuneOffset_eq : ∀ a < 4,
    ((if a = 3 then 1 else 0) ||| (a &&& 2)) = if a = 3 then 3 else if a = 2 then 2 else 0 := by
  decide

theorem detune_of_amount_zero {dt : BitVec 3} (h : dt.toNat % 4 = 0) (c : Config) (kcode : Nat) :
    detune c kcode dt = 0 :=
  if_pos h

/-- The sum of R238 that selects the entry and the shift of the detune, from the clamped key code and the amount. -/
def detuneSum (k a : Nat) : Nat := k / 4 + 9 + (if a = 3 then 3 else if a = 2 then 2 else 0)

theorem detune_eq (c : Config) (kcode : Nat) (dt : BitVec 3) :
    detune c kcode dt =
      if dt.toNat % 4 = 0 then 0
      else
        entry c.detuneBase (4 * (detuneSum (min kcode 28) (dt.toNat % 4) % 2) + min kcode 28 % 4)
          / 2 ^ (9 - detuneSum (min kcode 28) (dt.toNat % 4) / 2) := by
  unfold detune detuneAmount
  dsimp only
  rw [detuneOffset_eq _ (Nat.mod_lt _ (by decide)), Nat.shiftRight_eq_div_pow]
  rfl

theorem detuned_cast (base det : Nat) (dt : BitVec 3) :
    (detuned base det dt : Int) = (if 4 ≤ dt.toNat then (base : Int) - det else base + det) % 2 ^ 17 := by
  rw [detuned, wrap_cast]
  simp only [detuneNeg_iff]

theorem detuned_zero {base : Nat} (h : base < 2 ^ 17) (dt : BitVec 3) : detuned base 0 dt = base := by
  have hcast := detuned_cast base 0 dt
  split at hcast <;> omega

theorem mul2_eq (mul : BitVec 4) : mul2 mul = if mul = 0 then 1 else 2 * mul.toNat := by
  have hzero : mul.toNat = 0 ↔ mul = 0 := BitVec.toNat_inj (y := 0)
  simp only [mul2, hzero]

/-- R240: the increment, from the detuned base frequency. -/
theorem phaseInc_toNat (c : Config) (f : BitVec 11) (b dt : BitVec 3) (mul : BitVec 4) (pm : BitVec 5) (v : BitVec 3) :
    (phaseInc c f b dt mul pm v).toNat =
      detuned (baseFreq (vibratoFreq c f pm v) b) (detune c (keyCode c f b) dt) dt * mul2 mul / 2 % 2 ^ 20 :=
  BitVec.toNat_ofNat _ _

/-- Without vibrato and detune the increment is the base frequency times the multiplier. -/
theorem phaseInc_toNat_of_plain {c : Config} {f : BitVec 11} {dt : BitVec 3} {pm : BitVec 5} {v : BitVec 3}
    (hdepth : vibratoDepth c f pm v = 0) (hdt : dt.toNat % 4 = 0) (b : BitVec 3) (mul : BitVec 4) :
    (phaseInc c f b dt mul pm v).toNat = 2 * f.toNat * 2 ^ b.toNat / 4 * mul2 mul / 2 % 2 ^ 20 := by
  have hf12 : 2 * f.toNat < 2 ^ 12 := by omega
  rw [phaseInc_toNat, vibratoFreq_of_depth_zero hdepth, detune_of_amount_zero hdt, detuned_zero (baseFreq_lt hf12 b),
    baseFreq_eq]

/-- Settles O44: the steps of the increment one after the other; the fields of a visit by the definition of `visitInc`. -/
theorem plainIncrement : Obligations.PlainIncrement := by
  refine ⟨fun c f b dt mul pm v => ⟨⟨?_, rfl, ?_, ?_⟩, fun hrow1 hrow2 hdt => ?_⟩, fun c e r k => rfl⟩
  · rw [vibratoFreq_cast, vibratoDepth_eq]
    rfl
  · rw [detune_eq]
    rfl
  · rw [phaseInc_toNat, ← mul2_eq, Int.natCast_mod, Int.natCast_ediv, Nat.cast_mul, detuned_cast, baseFreq_eq, detune_eq]
    rfl
  · have hshift (t : List (List Nat)) (hrow : t.getD 0 [] = List.replicate 8 7) : entry2 t 0 (vibratoIndex pm) = 7 := by
      rw [entry2_eq_getD, hrow, List.getD_replicate _ (vibratoIndex_lt pm)]
    rw [← mul2_eq]
    exact phaseInc_toNat_of_plain (vibratoDepth_of_shifts f (hshift _ hrow1) (hshift _ hrow2)) hdt b mul

/-! ### Accumulation and restart (R230, R241) -/

theorem pgNext_of_visited {e : FsmRec} {r : Regs} {k : Fin 24} (h : visited e r = some k) (c : Config) :
    (pgNext c e r).phase[k] = visitPhase c e r k ∧ (pgNext c e r).inc[k] = visitInc c e r k := by
  rw [pgNext, h]
  exact ⟨setAt_get_same _ _ _, setAt_get_same _ _ _⟩

theorem visitPhase_toNat (c : Config) (e : FsmRec) (r : Regs) (k : Fin 24) :
    (visitPhase c e r k).toNat =
      if r.pg.reset[k] then 0 else (r.pg.phase[k].toNat + (visitInc c e r k).toNat) % 2 ^ 20 := by
  rw [visitPhase, apply_ite BitVec.toNat, BitVec.toNat_add]
  rfl

/-- Settles O43: the front slot is visited, and its visit leaves `visitPhase` and `visitInc`. -/
theorem phaseAccumulates : Obligations.PhaseAccumulates := by
  intro s hinv htick hrun
  refine ⟨s.stepTo, s.step_eq, fun k hfront => ?_⟩
  have hvisited : visited (enables s.cfg s.cur) s.cur = some k := hinv.visited_eq_front.trans hfront
  obtain ⟨hphase, hinc⟩ := pgNext_of_visited hvisited s.cfg
  rw [State.stepTo_nxt_pg htick hrun, hphase, hinc]
  exact ⟨visitPhase_toNat _ _ _ _, rfl⟩

end Sys2Proof.Machine
end

section
/-! The key history, the CSM request and the two timers (`spec/47_envelope_generator.md` R253, `spec/60_exceptions.md`
R335 to R345): what a tick out of reset makes of each. -/

namespace Sys2Proof.Machine

/-- In a machine that meets the invariant the per-slot stages visit the slot in front. -/
theorem State.Inv.visited_of_front {s : State} (h : s.Inv) {k : Fin 24} (hfront : s.cur.frontSlot = some k) :
    visited (enables s.cfg s.cur) s.cur = some k :=
  h.visited_eq_front.trans hfront

/-! ### The key state (R253, R345) -/

theorem keyNext_history_of_visited {e : FsmRec} {r : Regs} {k : Fin 24} (h : visited e r = some k) :
    (keyNext e r).konLatch[k] = (r.key.konReg[k] || csmMerge r k) ∧ (keyNext e r).konCsm[k] = csmMerge r k
      ∧ (keyNext e r).konPrev[k] = r.key.konLatch[k] := by
  rw [keyNext, h]
  exact ⟨setAt_get_same _ _ _, setAt_get_same _ _ _, setAt_get_same _ _ _⟩

/-- Settles O36: the front slot is visited, and its visit shifts the history. -/
theorem keyHistoryShifts : Obligations.KeyHistoryShifts := by
  intro s hinv htick hrun
  refine ⟨s.stepTo, s.step_eq, fun k hfront => ?_⟩
  rw [State.stepTo_nxt_key htick hrun]
  exact keyNext_history_of_visited (hinv.visited_of_front hfront)

/-- The CSM pairs do not depend on the visit of the tick. -/
theorem keyNext_csm (e : FsmRec) (r : Regs) :
    (keyNext e r).csmKon = (if e.tmrCoarse then csmPending e r else r.key.csmKon)
      ∧ (keyNext e r).csmReq = (!e.tmrCoarse && csmPending e r) := by
  unfold keyNext
  dsimp only
  split <;> exact ⟨rfl, rfl⟩

theorem keyNext_csm_of_coarse {e : FsmRec} (h : e.tmrCoarse = true) (r : Regs) :
    (keyNext e r).csmKon = csmPending e r ∧ (keyNext e r).csmReq = false := by
  obtain ⟨hkon, hreq⟩ := keyNext_csm e r
  rw [hkon, hreq, if_pos h, h]
  exact ⟨rfl, rfl⟩

theorem keyNext_csm_of_not_coarse {e : FsmRec} (h : e.tmrCoarse = false) (r : Regs) :
    (keyNext e r).csmReq = csmPending e r ∧ (keyNext e r).csmKon = r.key.csmKon := by
  obtain ⟨hkon, hreq⟩ := keyNext_csm e r
  rw [hkon, hreq, h]
  exact ⟨rfl, rfl⟩

/-- Settles O37: a coarse timer clock serves the pending request, any other tick keeps it. -/
theorem csmKeyOn : Obligations.CsmKeyOn := by
  intro s htick hrun
  refine ⟨s.stepTo, s.step_eq, ?_⟩
  rw [State.stepTo_nxt_key htick hrun]
  exact ⟨fun hcoarse => keyNext_csm_of_coarse hcoarse s.cur, fun hcoarse => keyNext_csm_of_not_coarse hcoarse s.cur⟩

/-! ### The timers (R335 to R341) -/

/-- The carry out of a `w`-bit count is its bit `w`. -/
theorem testBit_carry_iff {w n : Nat} (h : n < 2 ^ (w + 1)) : n.testBit w = true ↔ 2 ^ w ≤ n := by
  have htop := getLsbD_top_iff (BitVec.ofNat (w + 1) n)
  rwa [BitVec.getLsbD_ofNat, BitVec.toNat_ofNat, Nat.mod_eq_of_lt h, decide_eq_true w.lt_succ_self, Bool.true_and]
    at htop

/-- `t` of R336: the count of timer A after the load and the fine clock. -/
theorem taCount_eq (e : FsmRec) (r : Regs) :
    taCount e r = (if r.tmr.taLoadLatch then r.glob.taReload.toNat else r.tmr.taCnt.toNat)
      + (if e.tmrFine = true ∧ r.tmr.taLoadLock = true then 1 else 0) := by
  simp only [taCount, bit, Bool.and_eq_true]

theorem taCount_lt (e : FsmRec) (r : Regs) : taCount e r < 2 ^ 11 := by
  have hreload := r.glob.taReload.isLt
  have hcnt := r.tmr.taCnt.isLt
  rw [taCount_eq]
  split <;> split <;> omega

/-- `t` of R340: the count of timer B after the load and the wrap of its sub-counter. -/
theorem tbCount_eq (e : FsmRec) (r : Regs) :
    tbCount e r = (if r.tmr.tbLoadLatch then r.glob.tbReload.toNat else r.tmr.tbCnt.toNat)
      + (if e.tmrFine = true ∧ r.tmr.tbSub.toNat + 1 = 16 ∧ r.tmr.tbLoadLock = true then 1 else 0) := by
  have hlast : r.tmr.tbSub = 15 ↔ r.tmr.tbSub.toNat + 1 = 16 := by
    rw [← BitVec.toNat_inj]
    exact Nat.succ_inj.symm
  simp only [tbCount, bit, Bool.and_eq_true, beq_iff_eq, hlast, and_assoc]

theorem tbCount_lt (e : FsmRec) (r : Regs) : tbCount e r < 2 ^ 9 := by
  have hreload := r.glob.tbReload.isLt
  have hcnt := r.tmr.tbCnt.isLt
  rw [tbCount_eq]
  split <;> split <;> omega

theorem tbSub_succ_toNat (x : BitVec 4) : (x + 1).toNat = (x.toNat + 1) % 16 := BitVec.toNat_add x 1

theorem taFlagNext_of_reset {r : Regs} (h : r.glob.taReset = true) : taFlagNext r = false := by
  rw [taFlagNext, h]
  rfl

theorem taFlagNext_of_no_reset {r : Regs} (h : r.glob.taReset = false) :
    taFlagNext r = (r.tmr.taFlag || (r.tmr.taOvf && r.glob.taEnable)) := by
  rw [taFlagNext, h]
  rfl

theorem tbFlagNext_of_reset {r : Regs} (h : r.glob.tbReset = true) : tbFlagNext r = false := by
  rw [tbFlagNext, h]
  rfl

theorem tbFlagNext_of_no_reset {r : Regs} (h : r.glob.tbReset = false) :
    tbFlagNext r = (r.tmr.tbFlag || (r.tmr.tbOvf && r.glob.tbEnable)) := by
  rw [tbFlagNext, h]
  rfl

/-- Settles O38: the count modulo its ten bits, and its carry. -/
theorem timerACounts : Obligations.TimerACounts := by
  intro s htick hrun
  refine ⟨s.stepTo, s.step_eq, ?_⟩
  rw [State.stepTo_nxt_tmr htick hrun]
  dsimp only
  rw [← taCount_eq]
  exact ⟨rfl, rfl, BitVec.toNat_ofNat _ _, testBit_carry_iff (taCount_lt _ _), taFlagNext_of_reset,
    taFlagNext_of_no_reset⟩

/-- Settles O39: as timer A, with the sub-counter in front of an eight-bit count. -/
theorem timerBCounts : Obligations.TimerBCounts := by
  intro s htick hrun
  refine ⟨s.stepTo, s.step_eq, ?_⟩
  rw [State.stepTo_nxt_tmr htick hrun]
  dsimp only
  rw [← tbCount_eq, ← tbSub_succ_toNat, ← apply_ite BitVec.toNat]
  exact ⟨rfl, rfl, rfl, BitVec.toNat_ofNat _ _, testBit_carry_iff (tbCount_lt _ _), tbFlagNext_of_reset,
    tbFlagNext_of_no_reset⟩

/-! ### The timer reset requests (R338, R167) -/

/-- Only `MODE` writes the two reset requests. -/
theorem execTo_timerReset {i : Instr} (h : ∀ d, i ≠ .mode d) (s : State) :
    (execTo i s).nxt.glob.taReset = s.nxt.glob.taReset ∧ (execTo i s).nxt.glob.tbReset = s.nxt.glob.tbReset := by
  have hglob (hheld : (execTo i s).nxt.glob = s.nxt.glob) :
      (execTo i s).nxt.glob.taReset = s.nxt.glob.taReset ∧ (execTo i s).nxt.glob.tbReset = s.nxt.glob.tbReset := by
    rw [hheld]
    exact ⟨rfl, rfl⟩
  cases i
  case mode d => exact absurd rfl (h d)
  case dtMul | tl | ksAr | amDr | sr | slRr | ssgeg => exact hglob (writeSlot_nxt_glob s _ _)
  case fnumLo | fnumHi | fnum3Lo | fnum3Hi | fbAlg | panLfo => exact hglob (writeChan_nxt_glob s _ _)
  all_goals exact ⟨rfl, rfl⟩

namespace State

/-- The tick carries out a `MODE` write: the global write pulse at address 0x27 of bank 0 (R145, R167). -/
def WritesMode (s : State) : Prop :=
  s.cur.bus.regBank = 0 ∧ s.cur.bus.regAddr = 0x27 ∧ s.cur.bus.wdEn = true ∧ s.cur.bus.waEn = false

theorem pendingWrite_of_writesMode {s : State} (h : s.WritesMode) : s.pendingWrite = some (.mode s.bus) := by
  obtain ⟨hbank, haddr, hwd, hwa⟩ := h
  have hword (d : Byte) : decodeReg s.regWordCur d = .mode d := by
    rw [regWordCur, hbank, haddr]
    exact decoded_encodeWord (i := .mode d) rfl
  have hpulse : s.cur.writeOccurs .pulse = true := (globalPulse_iff s.cur).mpr ⟨hwd, hwa⟩
  rw [pendingWrite_eq s 0, hword, hword]
  exact if_pos hpulse

theorem writesMode_of_pendingWrite {s : State} {d : Byte} (h : s.pendingWrite = some (.mode d)) : s.WritesMode := by
  obtain ⟨hbank, haddr⟩ := captured_of_pendingWrite h rfl
  obtain ⟨hwd, hwa⟩ := (globalPulse_iff s.cur).mp (writeOccurs_of_pendingWrite h)
  exact ⟨hbank, haddr, hwd, hwa⟩

/-- Without a `MODE` write the requests clear themselves. -/
theorem written_timerReset_of_not {s : State} (h : ¬s.WritesMode) :
    s.written.nxt.glob.taReset = false ∧ s.written.nxt.glob.tbReset = false :=
  written_induction (P := fun t => t.nxt.glob.taReset = false ∧ t.nxt.glob.tbReset = false) ⟨rfl, rfl⟩ fun _ hi =>
    execTo_timerReset (fun _ hmode => h (writesMode_of_pendingWrite (hmode ▸ hi))) s.phase1

/-- A `MODE` write sets the requests to its bits 4 and 5. -/
theorem written_timerReset_of_mode {s : State} (h : s.WritesMode) :
    s.written.nxt.glob.taReset = flag s.bus 4 ∧ s.written.nxt.glob.tbReset = flag s.bus 5 := by
  rw [written, pendingWrite_of_writesMode h]
  exact ⟨rfl, rfl⟩

/-- The internal bus of a tick out of reset shows the byte of a write in the same sample, whichever its strobe. -/
theorem afterBus_bus_of_pins {s : State} (hrun : s.cur.rst.ic = false) :
    s.afterBus.bus = if s.nextPins.cs && s.nextPins.wr then s.nextPins.data else s.raw.dataLatch := by
  have hstrobes : (s.sampled.ioWa || s.sampled.ioWd) = (s.nextPins.cs && s.nextPins.wr) := by
    rw [ioWa, ioWd, sampled_pins, ← Bool.and_or_distrib_left, Bool.not_or_self, Bool.and_true]
  rw [afterBus_bus_of_run hrun, hstrobes]

theorem writesMode_afterBus (s : State) : s.afterBus.WritesMode ↔ s.WritesMode := by
  rw [WritesMode, WritesMode, afterBus_cur]

end State

/-- Settles O40: the flags by their own rule; the requests by whether the pending write is `MODE`. -/
theorem timerResetRequestsClear : Obligations.TimerResetRequestsClear := by
  intro s htick hrun
  refine ⟨s.stepTo, s.step_eq, ?_⟩
  rw [State.stepTo_nxt_tmr htick hrun, State.stepTo_nxt_of_run htick hrun]
  dsimp only
  refine ⟨taFlagNext_of_reset, tbFlagNext_of_reset, fun hnot => ?_, fun hmode => ?_⟩
  · exact State.written_timerReset_of_not (mt s.writesMode_afterBus.mp hnot)
  · rw [← State.afterBus_bus_of_pins hrun]
    exact State.written_timerReset_of_mode (s.writesMode_afterBus.mpr hmode)

end Sys2Proof.Machine
end

section
/-! Phase 1 and the reset forcing of one tick (`spec/70_reset_and_hazards.md` R360, R373). -/

namespace Sys2Proof.Machine

namespace State

/-! ### The `next` halves before phase 1 (R373) -/

/-- The state with other `next` halves. -/
def withNxt (s : State) (n : Regs) : State := { s with nxt := n }

theorem execTo_bus_withNxt {i : Instr} (h : i.isBus = true) (s : State) (n : Regs) :
    execTo i (s.withNxt n) = (execTo i s).withNxt n := by
  cases i
  case idle | waddr | wdata | rstat | rfloat => rfl
  all_goals cases h

theorem afterBus_withNxt (s : State) (n : Regs) : (s.withNxt n).afterBus = s.afterBus.withNxt n :=
  execTo_bus_withNxt (busOp_isBus s.sampled) s.sampled n

/-- Phase 1 computes every `next` half anew from the rest of the state. -/
theorem written_withNxt (s : State) (n : Regs) : (s.withNxt n).written = s.written := by
  have hphase1 : (s.withNxt n).phase1 = s.phase1 := rfl
  have hpending : (s.withNxt n).pendingWrite = s.pendingWrite := rfl
  rw [written, written, hphase1, hpending]

/-- A step in which phase 1 occurs forgets the `next` halves before it. -/
theorem stepTo_withNxt {s : State} (h : s.tickStarts = true) (n : Regs) : (s.withNxt n).stepTo = s.stepTo := by
  have hn : (s.withNxt n).tickStarts = true := h
  rw [stepTo, stepTo, afterTick, afterTick, if_pos h, if_pos hn, afterBus_withNxt, written_withNxt]

end State

/-- Settles O22: a step answers `stepTo`, whose phase 1 reads no `next` half. -/
theorem phase1ReadsNoNext : Obligations.Phase1ReadsNoNext := by
  intro s n htick
  rw [State.step_eq, State.step_eq]
  exact congrArg _ (State.stepTo_withNxt htick n)

/-! ### The forcing (R360) -/

/-- A tick with `ic.cur = 1` leaves the reset values, whatever its phase 1 and its register write have computed. -/
theorem State.stepTo_nxt_of_reset {s : State} (h : s.tickStarts = true) (hic : s.cur.rst.ic = true) :
    s.stepTo.nxt = { Regs.reset with rst := s.stepTo.nxt.rst, scan := s.stepTo.nxt.scan } := by
  have hic' : s.afterBus.written.cur.rst.ic = true := by rw [written_cur, afterBus_cur, hic]
  rw [stepTo_nxt, afterTick_nxt_of_tick h, forceReset_nxt_of_ic hic']

theorem replicate_get {α : Type} (n : Nat) (a : α) (k : Fin n) : (Vector.replicate n a)[k] = a :=
  Vector.getElem_replicate k.isLt

/-- Settles O25: the forcing, and the reset values as they are written, those of an array element by element. -/
theorem resetForcesEveryPair : Obligations.ResetForcesEveryPair := by
  refine ⟨fun s htick hic => ⟨s.stepTo, s.step_eq, State.stepTo_nxt_of_reset htick hic⟩, rfl, rfl, rfl, rfl, rfl, rfl,
    rfl, rfl, rfl, rfl, rfl, rfl, rfl, rfl, rfl, rfl, rfl, rfl, rfl, fun k => ?_, fun c => ?_, fun i => ?_⟩
  all_goals simp only [Regs.reset, replicate_get, and_self]

end Sys2Proof.Machine
end

section
/-! A debounced reset (`spec/70_reset_and_hazards.md` R361 to R363): runs over host cycles, the clock events of one cycle,
one tick of an idle bus, the ticks with the reset pin asserted, and the tick that samples it released. -/

namespace Sys2Proof

theorem Config.two_le_resetDebounce_of_wf {c : Config} (h : c.wf = true) : 2 ≤ c.resetDebounce := by
  simp only [wf, periodsOk, Bool.and_eq_true, decide_eq_true_eq] at h
  obtain ⟨⟨⟨⟨⟨⟨⟨-, hdebounce⟩, -⟩, -⟩, -⟩, -⟩, -⟩, -⟩ := h
  exact hdebounce

namespace Machine

/-! ### Runs and host cycles -/

theorem run_succ_of_next {M : Host.Core} {s t : M.State} (h : M.step s = .next t) (n : Nat) :
    M.run (n + 1) s = M.run n t := by
  rw [Host.Core.run, h]

/-- No step stops, so a run is the iteration of the step. -/
theorem core_run_eq (n : Nat) (s : State) : Sys2Proof.core.run n s = .next (State.stepTo^[n] s) := by
  induction n generalizing s with
  | zero => rfl
  | succ n ih => exact (run_succ_of_next (M := Sys2Proof.core) s.step_eq n).trans (ih s.stepTo)

theorem cycles_add (p : Pins) (a b : Nat) : cycles p (a + b) = cycles p a ++ cycles p b := by
  induction a with
  | zero => rw [Nat.zero_add]; rfl
  | succ a ih => rw [Nat.succ_add, cycles, cycles, ih, List.append_assoc]

/-- What every one of `n` cycles with the pins `p` takes from `Q j` to `Q (j + 1)` holds after them. -/
theorem cycles_induction {p : Pins} {Q : Nat → State → Prop} {l : List Pins} (n i : Nat)
    (hcycle : ∀ j t l', i ≤ j → j < i + n → t.host = cycle p ++ l' → Q j t → Q (j + 1) t.stepTo.stepTo) (s : State)
    (hhost : s.host = cycles p n ++ l) (hs : Q i s) :
    Q (i + n) (State.stepTo^[2 * n] s) ∧ (State.stepTo^[2 * n] s).host = l := by
  induction n generalizing i s with
  | zero => exact ⟨hs, hhost⟩
  | succ n ih =>
    rw [cycles, List.append_assoc] at hhost
    have hrest : s.stepTo.stepTo.host = cycles p n ++ l := by rw [State.stepTo_host, State.stepTo_host, hhost]; rfl
    have h := ih (i + 1) (fun j t l' hi hj => hcycle j t l' (by omega) (by omega)) s.stepTo.stepTo hrest
      (hcycle i s _ le_rfl (by omega) hhost hs)
    rwa [Nat.add_right_comm] at h

/-- An idle bus with the reset pin at level `b`. -/
def Pins.resetAt (b : Bool) : Pins := { Pins.idle false with reset := b }

namespace State

/-! ### Samples of an idle bus -/

/-- The pin-side latches are 0. -/
def LatchesIdle (s : State) : Prop :=
  s.raw.dataLatch = 0 ∧ s.raw.bankLatch = 0 ∧ s.raw.waPend = false ∧ s.raw.wdPend = false ∧ s.raw.waPrev = false
    ∧ s.raw.wdPrev = false

/-- The bus operation of an idle sample leaves idle latches, in reset from any latches. -/
theorem afterBus_latchesIdle {s : State} (hcs : s.nextPins.cs = false) (h : s.cur.rst.ic = true ∨ s.LatchesIdle) :
    s.afterBus.LatchesIdle := by
  have hwa : s.sampled.ioWa = false := by rw [ioWa, sampled_pins, hcs]; rfl
  have hwd : s.sampled.ioWd = false := by rw [ioWd, sampled_pins, hcs]; rfl
  obtain ⟨_, hbus⟩ := s.sampled.execTo_busOp
  rw [hwa, hwd] at hbus
  rw [afterBus, hbus, LatchesIdle]
  cases hic : s.cur.rst.ic with
  | true =>
    rw [pinSide, if_pos (show s.sampled.cur.rst.ic = true from hic)]
    exact ⟨rfl, rfl, rfl, rfl, rfl, rfl⟩
  | false =>
    obtain ⟨hdata, hbank, hwaPend, hwdPend, -, -⟩ := h.resolve_left (by simp [hic])
    rw [pinSide_of_no_write (s := s.sampled) hic]
    exact ⟨hdata, hbank, hwaPend, hwdPend, rfl, rfl⟩

theorem stepTo_latchesIdle {s : State} (hcs : s.nextPins.cs = false) (h : s.cur.rst.ic = true ∨ s.LatchesIdle) :
    s.stepTo.LatchesIdle := by
  have htick : s.afterTick.LatchesIdle := by
    obtain ⟨hdata, hbank, hwaPend, hwdPend, hwaPrev, hwdPrev⟩ := afterBus_latchesIdle hcs h
    unfold afterTick
    split
    · rw [LatchesIdle, forceReset_raw, written_raw]
      exact ⟨hdata, hbank, rfl, rfl, hwaPrev, hwdPrev⟩
    · exact ⟨hdata, hbank, hwaPend, hwdPend, hwaPrev, hwdPrev⟩
  rw [LatchesIdle, stepTo, finish_dataLatch, finish_bankLatch, finish_waPend, finish_wdPend, finish_waPrev,
    finish_wdPrev]
  exact htick

theorem serialIdle_iff (s : State) :
    s.SerialIdle ↔ s.raw.serial = { dacSr := 0, so := false, wc := false, lrc := false, bck := false } :=
  (Raw.serial_eq_iff (l := { dacSr := 0, so := false, wc := false, lrc := false, bck := false })).symm

/-- Only divided clock 1 takes the serializer out of its idle state. -/
theorem stepTo_serialIdle_of_not_dclk1 {s : State} (h : s.SerialIdle) (hd : s.dclk1 = false) :
    s.stepTo.SerialIdle := by
  by_cases hreset : s.cur.rst.ic = true ∨ s.stepTo.cur.rst.ic = true
  · exact stepTo_serialIdle hreset
  · rw [serialIdle_iff] at h ⊢
    cases hd2 : s.dclk2 with
    | true => rw [stepTo_serial_of_dclk2 hreset hd hd2, h]
    | false => rw [stepTo_serial_of_no_event hreset hd hd2, h]

/-! ### The two samples of a cycle (R101, R102) -/

section Cycle

variable {s : State} {b : Bool} {l : List Pins} (hhost : s.host = cycle (Pins.resetAt b) ++ l)
include hhost

theorem nextPins_low : s.nextPins = { Pins.resetAt b with clock := false } := by rw [nextPins, hhost]; rfl

theorem nextPins_high : s.stepTo.nextPins = { Pins.resetAt b with clock := true } := by
  rw [nextPins, stepTo_host, hhost]; rfl

theorem rises_low : s.rises = false := by
  have hhist : ∀ x : BitVec 2, (x.extractLsb' 0 1 ++ BitVec.ofBool false == (0b01 : BitVec 2)) = false := by decide
  have hclock : s.nextPins.clock = false := by rw [nextPins_low hhost]
  rw [rises, rise, sampled, detectEdge_oscHist, takeInput_pins, hclock]
  exact hhist _

theorem rises_high : s.stepTo.rises = true := by
  have hhist : ∀ x : BitVec 2,
      ((x.extractLsb' 0 1 ++ BitVec.ofBool false).extractLsb' 0 1 ++ BitVec.ofBool true == (0b01 : BitVec 2)) = true := by
    decide
  have hlow : s.nextPins.clock = false := by rw [nextPins_low hhost]
  have hhigh : s.stepTo.nextPins.clock = true := by rw [nextPins_high hhost]
  rw [rises, rise, sampled, detectEdge_oscHist, takeInput_pins, hhigh, takeInput_raw, stepTo_oscHist, sampled,
    detectEdge_oscHist, takeInput_pins, hlow]
  exact hhist _

theorem nxt_low : s.stepTo.nxt = s.nxt :=
  stepTo_nxt_of_not (tickStarts_of_not_rises (by simp [rises_low hhost]))

theorem cur_low : s.stepTo.cur = s.cur :=
  stepTo_cur_of_not (tickEnds_of_not_rises (by simp [rises_low hhost]))

theorem prescCnt_low : s.stepTo.raw.prescCnt = s.raw.prescCnt := by
  rw [stepTo_prescCnt, rises_low hhost]; rfl

theorem dclkCnt_low : s.stepTo.raw.dclkCnt = s.raw.dclkCnt := by
  rw [stepTo_dclkCnt, rises_low hhost]; rfl

omit hhost in
theorem cfg_cycle (s : State) : s.stepTo.stepTo.cfg = s.cfg := by rw [stepTo_cfg, stepTo_cfg]

theorem prescCnt_cycle : s.stepTo.stepTo.raw.prescCnt = (s.raw.prescCnt + 1) % s.cfg.prescPeriod := by
  rw [stepTo_prescCnt, rises_high hhost, if_pos rfl, prescCnt_low hhost, stepTo_cfg]

theorem dclkCnt_cycle (hvar : s.cfg.variant = .stereo) :
    s.stepTo.stepTo.raw.dclkCnt = (s.raw.dclkCnt + 1) % s.cfg.dclkPeriod := by
  rw [stepTo_dclkCnt_of_variant, stepTo_cfg, if_pos ⟨hvar, rises_high hhost⟩, dclkCnt_low hhost]

theorem tickStarts_high (h0 : s.raw.prescCnt = 0) : s.stepTo.tickStarts = true :=
  (tickStarts_iff_of_rises (rises_high hhost)).mpr ((prescCnt_low hhost).trans h0)

theorem nxt_cycle (h0 : s.raw.prescCnt ≠ 0) : s.stepTo.stepTo.nxt = s.nxt := by
  have hno : ¬s.stepTo.tickStarts = true := by
    rwa [tickStarts_iff_of_rises (rises_high hhost), prescCnt_low hhost]
  rw [stepTo_nxt_of_not (Bool.eq_false_of_not_eq_true hno), nxt_low hhost]

theorem cur_cycle (hhalf : s.raw.prescCnt ≠ s.cfg.prescPeriod / 2) : s.stepTo.stepTo.cur = s.cur := by
  have hno : ¬s.stepTo.tickEnds = true := by
    rwa [tickEnds_iff_of_rises (rises_high hhost), prescCnt_low hhost, stepTo_cfg]
  rw [stepTo_cur_of_not (Bool.eq_false_of_not_eq_true hno), cur_low hhost]

/-- The commit of the cycle in the middle of the period. -/
theorem cur_cycle_of_half (hwf : s.cfg.wf = true) (hhalf : s.raw.prescCnt = s.cfg.prescPeriod / 2) :
    s.stepTo.stepTo.cur = s.nxt := by
  have hends : s.stepTo.tickEnds = true := by
    rwa [tickEnds_iff_of_rises (rises_high hhost), prescCnt_low hhost, stepTo_cfg]
  rw [stepTo_cur_of_tickEnds (by rwa [stepTo_cfg]) hends, nxt_low hhost]

theorem latchesIdle_cycle (h : s.cur.rst.ic = true ∨ s.LatchesIdle) : s.stepTo.stepTo.LatchesIdle :=
  stepTo_latchesIdle (by rw [nextPins_high hhost]; rfl)
    (Or.inr (stepTo_latchesIdle (by rw [nextPins_low hhost]; rfl) h))

theorem serialIdle_cycle_of_reset (h : s.cur.rst.ic = true) : s.stepTo.stepTo.SerialIdle :=
  stepTo_serialIdle (Or.inl (by rw [cur_low hhost, h]))

/-- An idle serializer stays so in a cycle without divided clock 1. -/
theorem serialIdle_cycle (h : s.SerialIdle) (hd : s.cfg.variant = .stereo → s.raw.dclkCnt ≠ 0) :
    s.stepTo.stepTo.SerialIdle := by
  have hlow : s.dclk1 = false := Bool.eq_false_iff.mpr fun h1 => by
    obtain ⟨⟨-, hrises⟩, -⟩ := s.dclk1_iff.mp h1
    rw [rises_low hhost] at hrises
    cases hrises
  have hhigh : s.stepTo.dclk1 = false := Bool.eq_false_iff.mpr fun h1 => by
    obtain ⟨⟨hvar, -⟩, h0⟩ := s.stepTo.dclk1_iff.mp h1
    rw [stepTo_cfg] at hvar
    rw [dclkCnt_low hhost] at h0
    exact hd hvar h0
  exact stepTo_serialIdle_of_not_dclk1 (stepTo_serialIdle_of_not_dclk1 h hlow) hhigh

/-- The output record of the second sample shows the internal bus, not driven, and the sample outputs. -/
theorem out_cycle :
    s.stepTo.stepTo.out.dataOut = s.stepTo.stepTo.bus ∧ s.stepTo.stepTo.out.dataOutEn = false
      ∧ s.stepTo.stepTo.out.audio = s.stepTo.stepTo.audio := by
  obtain ⟨hdata, hen⟩ := stepTo_data_of_no_read (s := s.stepTo) (by rw [nextPins_high hhost]; rfl)
  exact ⟨hdata, hen, rfl⟩

end Cycle

/-! ### One tick of an idle bus -/

/-- The `next` halves that the tick starting in the next cycle commits. -/
def tickNxt (s : State) : Regs := s.stepTo.stepTo.nxt

/-- The divided clocks can be followed by the prescaler count: they have its period and start at 0. -/
def DclkInStep (s : State) : Prop := s.cfg.dclkPeriod = s.cfg.prescPeriod ∧ s.raw.dclkCnt = 0

/-- `t` is `s`, at a tick boundary, `j` cycles of an idle bus later, `1 ≤ j`. -/
structure InTick (s : State) (j : Nat) (t : State) : Prop where
  cfg : t.cfg = s.cfg
  presc : t.raw.prescCnt = j % s.cfg.prescPeriod
  nxt : t.nxt = s.tickNxt
  curBefore : j ≤ s.cfg.prescPeriod / 2 → t.cur = s.cur
  curAfter : s.cfg.prescPeriod / 2 < j → t.cur = s.tickNxt
  latches : s.cur.rst.ic = true → t.LatchesIdle
  dclk : s.DclkInStep → s.cfg.variant = .stereo → t.raw.dclkCnt = j % s.cfg.prescPeriod
  serial : s.cur.rst.ic = true → j ≤ s.cfg.prescPeriod / 2 + 1 ∨ s.cfg.variant = .mono ∨ s.DclkInStep → t.SerialIdle
  out : t.out.dataOut = t.bus ∧ t.out.dataOutEn = false ∧ t.out.audio = t.audio

section Tick

variable {s : State} {b : Bool} {l : List Pins} (hwf : s.cfg.wf = true) (h0 : s.raw.prescCnt = 0)
include hwf h0

/-- The cycle in which phase 1 occurs. -/
theorem inTick_one (hhost : s.host = cycle (Pins.resetAt b) ++ l) : s.InTick 1 s.stepTo.stepTo where
  cfg := cfg_cycle s
  presc := by rw [prescCnt_cycle hhost, h0]
  nxt := rfl
  curBefore _ := cur_cycle hhost (by have := two_le_prescPeriod hwf; omega)
  curAfter h := by have := two_le_prescPeriod hwf; omega
  latches hic := latchesIdle_cycle hhost (Or.inl hic)
  dclk hstep hvar := by rw [dclkCnt_cycle hhost hvar, hstep.1, hstep.2]
  serial hic _ := serialIdle_cycle_of_reset hhost hic
  out := out_cycle hhost

omit h0 in
/-- A later cycle of the tick. -/
theorem InTick.succ {j : Nat} {t : State} (h : s.InTick j t) (h1 : 1 ≤ j) (hj : j < s.cfg.prescPeriod)
    (hhost : t.host = cycle (Pins.resetAt b) ++ l) : s.InTick (j + 1) t.stepTo.stepTo := by
  have hcnt : t.raw.prescCnt = j := by rw [h.presc, Nat.mod_eq_of_lt hj]
  have hcfg : t.cfg.prescPeriod = s.cfg.prescPeriod := by rw [h.cfg]
  refine ⟨?_, ?_, ?_, fun hle => ?_, fun hlt => ?_, fun hic => ?_, fun hstep hvar => ?_, fun hic hserial => ?_,
    out_cycle hhost⟩
  · rw [cfg_cycle, h.cfg]
  · rw [prescCnt_cycle hhost, hcnt, hcfg]
  · rw [nxt_cycle hhost (by omega), h.nxt]
  · rw [cur_cycle hhost (by omega), h.curBefore (by omega)]
  · by_cases hhalf : j = s.cfg.prescPeriod / 2
    · rw [cur_cycle_of_half hhost (by rwa [h.cfg]) (by omega), h.nxt]
    · rw [cur_cycle hhost (by omega), h.curAfter (by omega)]
  · exact latchesIdle_cycle hhost (Or.inr (h.latches hic))
  · rw [dclkCnt_cycle hhost (by rwa [h.cfg]), h.dclk hstep hvar, h.cfg, hstep.1, Nat.mod_eq_of_lt hj]
  · by_cases hle : j ≤ s.cfg.prescPeriod / 2
    · exact serialIdle_cycle_of_reset hhost (by rw [h.curBefore hle, hic])
    · have hmode := hserial.resolve_left (by omega)
      refine serialIdle_cycle hhost (h.serial hic (Or.inr hmode)) fun hvar => ?_
      rw [h.cfg] at hvar
      have hstep : s.DclkInStep := hmode.resolve_left (by simp [hvar])
      rw [h.dclk hstep hvar, Nat.mod_eq_of_lt hj]
      omega

/-- `j` cycles of an idle bus from a tick boundary, within the tick. -/
theorem inTick_of_cycles {j : Nat} (h1 : 1 ≤ j) (hj : j ≤ s.cfg.prescPeriod)
    (hhost : s.host = cycles (Pins.resetAt b) j ++ l) :
    s.InTick j (stepTo^[2 * j] s) ∧ (stepTo^[2 * j] s).host = l := by
  obtain ⟨n, rfl⟩ := Nat.exists_eq_add_of_le' h1
  rw [cycles, List.append_assoc] at hhost
  have hrest : s.stepTo.stepTo.host = cycles (Pins.resetAt b) n ++ l := by rw [stepTo_host, stepTo_host, hhost]; rfl
  have hrun := cycles_induction n 1 (fun i t l' hi hin ht hQ => InTick.succ hwf hQ hi (by omega) ht) s.stepTo.stepTo
    hrest (inTick_one hwf h0 hhost)
  rwa [Nat.add_comm 1 n] at hrun

end Tick

/-- The reset pairs that a tick of an idle bus leaves (R109). -/
theorem tickNxt_rst {s : State} {b : Bool} {l : List Pins} (hhost : s.host = cycle (Pins.resetAt b) ++ l)
    (h0 : s.raw.prescCnt = 0) : s.tickNxt.rst = rstNext s.cfg b s.cur := by
  rw [tickNxt, stepTo_nxt_rst (tickStarts_high hhost h0), stepTo_cfg, cur_low hhost, nextPins_high hhost]
  rfl

/-! ### The ticks with the reset pin asserted (R361) -/

/-- One more sample of the asserted pin is one more 1 at the low end of `rst_sr`, up to its width. -/
theorem shifted_ones_dvd {k n r : Nat} (h : 2 ^ k ∣ r + 1) : 2 ^ min (k + 1) n ∣ (2 * r + 1) % 2 ^ n + 1 := by
  have hdouble : 2 ^ min (k + 1) n ∣ (2 * r + 1) % 2 ^ n + 1 + 2 ^ n * ((2 * r + 1) / 2 ^ n) := by
    have hsum : (2 * r + 1) % 2 ^ n + 1 + 2 ^ n * ((2 * r + 1) / 2 ^ n) = 2 * (r + 1) := by
      have hdiv := Nat.mod_add_div (2 * r + 1) (2 ^ n)
      omega
    rw [hsum]
    refine (Nat.pow_dvd_pow 2 (Nat.min_le_left _ _)).trans ?_
    rw [pow_succ, Nat.mul_comm]
    exact Nat.mul_dvd_mul_left 2 h
  exact (Nat.dvd_add_left (Dvd.dvd.mul_right (Nat.pow_dvd_pow 2 (Nat.min_le_right _ _)) _)).mp hdouble

/-- `t` is `s`, at a tick boundary, `i` ticks with the reset pin asserted later. -/
structure InReset (s : State) (i : Nat) (t : State) : Prop where
  cfg : t.cfg = s.cfg
  presc : t.raw.prescCnt = 0
  dclk : s.DclkInStep → s.cfg.variant = .stereo → t.raw.dclkCnt = 0
  ic : 0 < i → t.cur.rst.ic = true
  width : 0 < i → t.cur.rst.rstSr < 2 ^ s.cfg.resetDebounce
  ones : 2 ^ min i s.cfg.resetDebounce ∣ t.cur.rst.rstSr + 1

theorem InReset.succ {s t : State} {i : Nat} (h : s.InReset i t) (hwf : s.cfg.wf = true) {l : List Pins}
    (hhost : t.host = cycles (Pins.resetAt true) s.cfg.prescPeriod ++ l) :
    s.InReset (i + 1) (stepTo^[2 * s.cfg.prescPeriod] t) ∧ (stepTo^[2 * s.cfg.prescPeriod] t).host = l := by
  have hperiod := two_le_prescPeriod hwf
  obtain ⟨htick, hrest⟩ := inTick_of_cycles (by rwa [h.cfg]) h.presc (by omega) (by rw [h.cfg]) hhost
  have hrst : (stepTo^[2 * s.cfg.prescPeriod] t).cur.rst = rstNext s.cfg true t.cur := by
    obtain ⟨n, hn⟩ := Nat.exists_eq_add_of_le' (Nat.one_le_of_lt hperiod)
    rw [hn, cycles, List.append_assoc] at hhost
    rw [htick.curAfter (by rw [h.cfg]; omega), tickNxt_rst hhost h.presc, h.cfg]
  refine ⟨⟨htick.cfg.trans h.cfg, ?_, fun hstep hvar => ?_, fun _ => ?_, fun _ => ?_, ?_⟩, hrest⟩
  · rw [htick.presc, h.cfg, Nat.mod_self]
  · have hstep' : t.DclkInStep := ⟨by rw [h.cfg, hstep.1], h.dclk hstep hvar⟩
    rw [htick.dclk hstep' (by rwa [h.cfg]), h.cfg, Nat.mod_self]
  · rw [hrst]
    rfl
  · rw [hrst]
    exact rstNext_rstSr_lt _ _ _
  · rw [hrst]
    have hmin : min (i + 1) s.cfg.resetDebounce = min (min i s.cfg.resetDebounce + 1) s.cfg.resetDebounce := by omega
    rw [hmin]
    exact shifted_ones_dvd h.ones

theorem inReset_of_cycles {s : State} (hwf : s.cfg.wf = true) (h0 : s.raw.prescCnt = 0) (m : Nat) {l : List Pins}
    (hhost : s.host = cycles (Pins.resetAt true) (m * s.cfg.prescPeriod) ++ l) :
    s.InReset m (stepTo^[2 * (m * s.cfg.prescPeriod)] s) ∧ (stepTo^[2 * (m * s.cfg.prescPeriod)] s).host = l := by
  induction m generalizing l with
  | zero =>
    rw [Nat.zero_mul] at hhost ⊢
    refine ⟨⟨rfl, h0, fun hstep _ => hstep.2, fun h => absurd h (lt_irrefl 0), fun h => absurd h (lt_irrefl 0), ?_⟩,
      hhost⟩
    rw [Nat.zero_min, pow_zero]
    exact one_dvd _
  | succ m ih =>
    rw [Nat.succ_mul, cycles_add, List.append_assoc] at hhost
    obtain ⟨hreset, hrest⟩ := ih hhost
    have hsplit : 2 * ((m + 1) * s.cfg.prescPeriod) = 2 * s.cfg.prescPeriod + 2 * (m * s.cfg.prescPeriod) := by ring
    rw [hsplit, Function.iterate_add_apply]
    exact hreset.succ hwf hrest

/-- After at least `N` ticks the reset synchroniser is full. -/
theorem InReset.fsmReset {s t : State} {m : Nat} (h : s.InReset m t) (hm : 0 < m) (hN : s.cfg.resetDebounce ≤ m) :
    t.cur.rst.rstSr + 1 = 2 ^ s.cfg.resetDebounce := by
  have hones := h.ones
  rw [Nat.min_eq_right hN] at hones
  have hle := Nat.le_of_dvd (Nat.succ_pos _) hones
  have hlt := h.width hm
  omega

/-! ### The tick that samples the pin released (R362) -/

/-- With the synchroniser full, a tick in reset that samples the pin released commits the canonical idle state. -/
theorem tickNxt_eq_canonical {s : State} {l : List Pins} (hN : 1 ≤ s.cfg.resetDebounce)
    (hhost : s.host = cycle (Pins.resetAt false) ++ l) (h0 : s.raw.prescCnt = 0) (hic : s.cur.rst.ic = true)
    (hfull : s.cur.rst.rstSr + 1 = 2 ^ s.cfg.resetDebounce) : s.tickNxt = Regs.canonical s.cfg := by
  have htick := tickStarts_high hhost h0
  have hic' : s.stepTo.cur.rst.ic = true := by rw [cur_low hhost, hic]
  have hrst : s.tickNxt.rst = { ic := false, rstSr := 2 ^ s.cfg.resetDebounce - 2 } := by
    have hshift : (2 * s.cur.rst.rstSr + bit false) % 2 ^ s.cfg.resetDebounce = 2 ^ s.cfg.resetDebounce - 2 := by
      obtain ⟨n, hn⟩ := Nat.exists_eq_add_of_le' hN
      rw [hn, pow_succ] at hfull ⊢
      have hpos := Nat.two_pow_pos n
      rw [show 2 * s.cur.rst.rstSr + bit false = (2 ^ n * 2 - 2) + 2 ^ n * 2 by simp [bit]; omega,
        Nat.add_mod_right, Nat.mod_eq_of_lt (by omega)]
    rw [tickNxt_rst hhost h0, rstNext, hshift]
  have hscan : s.tickNxt.scan = Regs.reset.scan := by
    have hfsm : fsmReset s.cfg s.cur = true := beq_iff_eq.mpr (by omega)
    rw [tickNxt, stepTo_nxt_scan htick, stepTo_cfg, cur_low hhost, scanNext, hfsm]
    rfl
  have hforced := stepTo_nxt_of_reset htick hic'
  rw [← tickNxt, hrst, hscan] at hforced
  exact hforced

/-- From the commit of that tick on, the pairs and the latches are canonical idle. -/
theorem InTick.canonicalIdle {s t : State} {j : Nat} (h : s.InTick j t) (hic : s.cur.rst.ic = true)
    (hj : s.cfg.prescPeriod / 2 < j) (hcanon : s.tickNxt = Regs.canonical s.cfg) : t.CanonicalIdle := by
  rw [CanonicalIdle, h.curAfter hj, h.nxt, hcanon, h.cfg]
  exact ⟨rfl, rfl, h.latches hic⟩

theorem canonical_status (c : Config) : (Regs.canonical c).status = 0 := by
  have hreset : Regs.reset.status = 0 := by decide
  exact hreset

/-- The output record of the canonical idle state, once driven (R362, R363). -/
theorem out_of_canonicalIdle {t : State} (h : t.CanonicalIdle) (hserial : t.SerialIdle)
    (hout : t.out.dataOut = t.bus ∧ t.out.dataOutEn = false ∧ t.out.audio = t.audio) :
    t.cur.status = 0 ∧ t.out.dataOut = 0 ∧ t.out.dataOutEn = false
      ∧ t.out.audio = match t.cfg.variant with
        | .mono => .mono 0
        | .stereo => .stereo false false false false := by
  obtain ⟨hcur, -, hdata, -⟩ := h
  obtain ⟨-, hso, hwc, hlrc, hbck⟩ := hserial
  obtain ⟨hbus, hen, haudio⟩ := hout
  have hrun : t.cur.rst.ic = false := by rw [hcur]; rfl
  refine ⟨?_, ?_, hen, ?_⟩
  · rw [hcur, canonical_status]
  · rw [hbus, bus_of_run hrun, hdata]
  · rw [haudio, audio, hcur, hso, hwc, hlrc, hbck]
    rfl

/-- `m` ticks with the pin asserted and `j` cycles of the tick that samples it released, from its commit on. -/
theorem released_of_cycles {s : State} {m j : Nat} {l : List Pins} (hwf : s.cfg.wf = true) (h0 : s.raw.prescCnt = 0)
    (hm : s.cfg.resetDebounce ≤ m) (hj : s.cfg.prescPeriod / 2 < j) (hle : j ≤ s.cfg.prescPeriod)
    (hhost : s.host = cycles (Pins.resetAt true) (m * s.cfg.prescPeriod)
      ++ (cycles (Pins.resetAt false) s.cfg.prescPeriod ++ l)) :
    ∃ u : State, s.InReset m u ∧ u.cur.rst.ic = true ∧ u.InTick j (stepTo^[2 * (m * s.cfg.prescPeriod + j)] s)
      ∧ (stepTo^[2 * (m * s.cfg.prescPeriod + j)] s).CanonicalIdle := by
  have hN := Config.two_le_resetDebounce_of_wf hwf
  obtain ⟨hreset, hrest⟩ := inReset_of_cycles hwf h0 m hhost
  have hsplit : 2 * (m * s.cfg.prescPeriod + j) = 2 * j + 2 * (m * s.cfg.prescPeriod) := by ring
  rw [hsplit, Function.iterate_add_apply]
  generalize stepTo^[2 * (m * s.cfg.prescPeriod)] s = u at hreset hrest ⊢
  obtain ⟨rest, hperiod⟩ := Nat.exists_eq_add_of_le hle
  rw [hperiod, cycles_add, List.append_assoc] at hrest
  obtain ⟨htick, -⟩ := inTick_of_cycles (by rwa [hreset.cfg]) hreset.presc (by omega) (by rwa [hreset.cfg]) hrest
  have hic := hreset.ic (by omega)
  obtain ⟨n, rfl⟩ := Nat.exists_eq_add_of_le' (Nat.one_le_of_lt hj)
  rw [cycles, List.append_assoc] at hrest
  have hcanon := tickNxt_eq_canonical (by rw [hreset.cfg]; omega) hrest hreset.presc hic
    (by rw [hreset.cfg]; exact hreset.fsmReset (by omega) hm)
  exact ⟨u, hreset, hic, htick, htick.canonicalIdle hic (by rwa [hreset.cfg]) hcanon⟩

section DebouncedReset

variable {s : State} {m : Nat} {l : List Pins} (hwf : s.cfg.wf = true) (h0 : s.raw.prescCnt = 0)
  (hm : s.cfg.resetDebounce ≤ m)
  (hhost : s.host = cycles (Pins.resetAt true) (m * s.cfg.prescPeriod)
    ++ (cycles (Pins.resetAt false) s.cfg.prescPeriod ++ l))
include hwf h0 hm hhost

/-- After the commit of the tick that samples the pin released, serializer and outputs are idle too. -/
theorem idle_after_release_commit :
    ∃ t : State, Sys2Proof.core.run (2 * (m * s.cfg.prescPeriod + s.cfg.prescPeriod / 2 + 1)) s = .next t
      ∧ t.CanonicalIdle ∧ t.SerialIdle ∧ t.cfg = s.cfg ∧ t.cur.status = 0 ∧ t.out.dataOut = 0 ∧ t.out.dataOutEn = false
      ∧ t.out.audio = match s.cfg.variant with
        | .mono => .mono 0
        | .stereo => .stereo false false false false := by
  have hperiod := two_le_prescPeriod hwf
  obtain ⟨u, hreset, hic, htick, hidle⟩ :=
    released_of_cycles (j := s.cfg.prescPeriod / 2 + 1) hwf h0 hm (by omega) (by omega) hhost
  have hserial := htick.serial hic (.inl (by rw [hreset.cfg]))
  have hcfg := htick.cfg.trans hreset.cfg
  have hout := out_of_canonicalIdle hidle hserial htick.out
  rw [hcfg] at hout
  exact ⟨_, core_run_eq _ _, hidle, hserial, hcfg, hout⟩

/-- At the end of that tick the serializer is still idle unless a divided clock of its own has come in between. -/
theorem idle_after_release_tick :
    ∃ t : State, Sys2Proof.core.run (2 * ((m + 1) * s.cfg.prescPeriod)) s = .next t
      ∧ t.CanonicalIdle ∧ t.cfg = s.cfg ∧ t.raw.prescCnt = 0
      ∧ (s.cfg.variant = .mono ∨ s.DclkInStep → t.SerialIdle) := by
  have hperiod := two_le_prescPeriod hwf
  obtain ⟨u, hreset, hic, htick, hidle⟩ := released_of_cycles hwf h0 hm (by omega) le_rfl hhost
  rw [Nat.succ_mul m]
  refine ⟨_, core_run_eq _ _, hidle, htick.cfg.trans hreset.cfg, ?_, fun hmode => htick.serial hic (.inr ?_)⟩
  · rw [htick.presc, hreset.cfg, Nat.mod_self]
  · cases hvar : s.cfg.variant with
    | mono => exact .inl (by rw [hreset.cfg, hvar])
    | stereo =>
      have hstep : s.DclkInStep := hmode.resolve_left (by simp [hvar])
      exact .inr ⟨by rw [hreset.cfg, hstep.1], hreset.dclk hstep hvar⟩

end DebouncedReset

end State

/-- The host actions `RESET m` and `WAIT 1` as one tick after the other. -/
theorem hostReset_append_hostWait (c : Config) (m : Nat) :
    hostReset c m ++ hostWait c 1 =
      cycles (Pins.resetAt true) (m * c.prescPeriod) ++ (cycles (Pins.resetAt false) c.prescPeriod ++ []) := by
  rw [hostWait, Nat.one_mul, List.append_nil]
  rfl

/-- Settles O26: `m` ticks fill the reset synchroniser, and the tick after them, which samples the pin released, commits
the canonical idle state and keeps it to its end. -/
theorem resetGivesCanonicalIdle : Obligations.ResetGivesCanonicalIdle := by
  intro s m hwf h0 hm start
  have hhost := hostReset_append_hostWait s.cfg m
  exact ⟨State.idle_after_release_commit (s := start) hwf h0 hm hhost,
    State.idle_after_release_tick (s := start) hwf h0 hm hhost⟩

end Machine

end Sys2Proof
end

section
/-! The operator network (`spec/48_operator_network.md` R291 to R299) and the accumulators with the output stage
(`spec/49_accumulator_dac.md` R311 to R319): what a visit computes, and what it leaves. -/

namespace Sys2Proof.Machine

/-! ### Slots by their number (R24) -/

theorem posOf_eq_zero_iff (k : Fin 24) : (posOf k).val = 0 ↔ k.val < 6 :=
  Nat.div_eq_zero_iff_lt (by decide)

theorem posOf_slotOf (p : Fin 4) (c : Fin 6) : posOf (slotOf p c) = p := by
  apply Fin.ext
  simp only [posOf, slotOf]
  omega

theorem chanOf_slotOf (p : Fin 4) (c : Fin 6) : chanOf (slotOf p c) = c := by
  apply Fin.ext
  simp only [chanOf, slotOf]
  omega

/-- A slot of position 0 is the first one of its channel. -/
theorem eq_slotOf_zero {k : Fin 24} (h : (posOf k).val = 0) : k = slotOf 0 (chanOf k) := by
  have hk := (posOf_eq_zero_iff k).mp h
  apply Fin.ext
  simp only [slotOf, chanOf, Fin.val_zero]
  omega

/-! ### The operator output (R291 to R297) -/

theorem phaseWord_eq (phase : BitVec 20) (modIn : BitVec 10) :
    phaseWord phase modIn = BitVec.ofNat 10 ((phase.toNat / 1024 + modIn.toNat) % 1024) := by
  apply BitVec.eq_of_toNat_eq
  rw [phaseWord, BitVec.toNat_add, BitVec.extractLsb'_toNat, BitVec.toNat_ofNat, Nat.shiftRight_eq_div_pow]
  omega

/-- R294: bit 8 of the phase word mirrors the quarter wave. -/
theorem quarterIndex_eq (ph : BitVec 10) :
    quarterIndex ph = if ph.toNat / 256 % 2 = 1 then 255 - ph.toNat % 256 else ph.toNat % 256 := by
  have hbit : ph.getLsbD 8 = true ↔ ph.toNat / 256 % 2 = 1 := by
    rw [BitVec.getLsbD, Nat.testBit_eq_decide_div_mod_eq, decide_eq_true_eq]
  simp only [quarterIndex, hbit]

theorem logSum_eq (c : Config) (ph eg : BitVec 10) :
    logSum c ph eg = min (c.logsin.getD (quarterIndex ph) 0 + 4 * eg.toNat) 0x1FFF := rfl

/-- R297: two more bits, then the shift by the integer part of the attenuation. -/
theorem magnitude_eq (c : Config) (lg : Nat) :
    magnitude c lg = ((c.exprom.getD (255 - lg % 256) 0 ||| 0x400) * 4) / 2 ^ (lg / 256) := by
  rw [magnitude, Nat.shiftRight_eq_div_pow, Nat.shiftLeft_eq]
  rfl

theorem opNext_modIn (c : Config) (e : FsmRec) (r : Regs) : (opNext c e r).modIn = modInNext c r := by
  unfold opNext
  split <;> rfl

theorem opNext_opOut_of_visited {e : FsmRec} {r : Regs} {k : Fin 24} (h : visited e r = some k) (c : Config) :
    (opNext c e r).opOut[k] = visitOpOut c r k := by
  rw [opNext, h]
  exact setAt_get_same _ _ _

/-- R298: the visit of a first operator, slot `k` below 6, moves its last output to the history of channel `k`. -/
theorem opNext_op1Prev_of_visited {e : FsmRec} {r : Regs} {k : Fin 24} (h : visited e r = some k) (c : Config)
    (ch : Fin 6) : (opNext c e r).op1Prev[ch] = if k.val = ch.val then r.op.opOut[k] else r.op.op1Prev[ch] := by
  rw [opNext, h]
  dsimp only
  by_cases hpos : (posOf k).val = 0
  · have hk := (posOf_eq_zero_iff k).mp hpos
    have hch : ch = chanOf k ↔ k.val = ch.val := by
      rw [Fin.ext_iff, chanOf]
      dsimp only
      omega
    rw [if_pos hpos, setAt_get]
    simp only [hch]
  · have hk := mt (posOf_eq_zero_iff k).mpr hpos
    rw [if_neg hpos, if_neg (by omega)]

/-- Settles O54: the front slot is visited, and its output read as numbers is the one the rules name. -/
theorem operatorOutput : Obligations.OperatorOutput := by
  intro s k hinv htick hrun hfront
  have hvisited := hinv.visited_of_front hfront
  refine ⟨s.stepTo, s.step_eq, ?_⟩
  dsimp only
  rw [State.stepTo_nxt_op htick hrun, opNext_opOut_of_visited hvisited, visitOpOut, phaseWord_eq]
  have hph : (s.cur.pg.phase[k].toNat / 1024 + s.cur.op.modIn.toNat) % 1024 < 1024 := Nat.mod_lt _ (by decide)
  generalize (s.cur.pg.phase[k].toNat / 1024 + s.cur.op.modIn.toNat) % 1024 = ph at hph ⊢
  have hword : (BitVec.ofNat 10 ph).toNat = ph := by rw [BitVec.toNat_ofNat, Nat.mod_eq_of_lt hph]
  have hsign : (BitVec.ofNat 10 ph).getLsbD 9 = true ↔ ph / 512 = 1 := by
    rw [getLsbD_top_iff, hword]
    omega
  refine ⟨?_, rfl, opNext_op1Prev_of_visited hvisited s.cfg⟩
  rw [operatorOut_toInt (Config.exprom_of_wf hinv.cfg), magnitude_eq, logSum_eq, quarterIndex_eq, hword]
  simp only [hsign]

/-! ### The shape of the output (R293, R294, R297) -/

section HalfTurn

variable (ph : BitVec 10)

theorem halfTurn_toNat : (ph + 512).toNat = (ph.toNat + 512) % 1024 := BitVec.toNat_add ph 512

/-- Half a turn stands at the same place of the quarter wave. -/
theorem quarterIndex_halfTurn : quarterIndex (ph + 512) = quarterIndex ph := by
  have hquarter : (ph.toNat + 512) % 1024 / 256 % 2 = ph.toNat / 256 % 2 := by omega
  have hindex : (ph.toNat + 512) % 1024 % 256 = ph.toNat % 256 := by omega
  rw [quarterIndex_eq, quarterIndex_eq, halfTurn_toNat, hquarter, hindex]

/-- Half a turn changes the sign of the phase. -/
theorem sign_halfTurn : (ph + 512).getLsbD 9 = !ph.getLsbD 9 := by
  rw [Bool.eq_iff_iff, Bool.not_eq_true', ← Bool.not_eq_true, getLsbD_top_iff, getLsbD_top_iff, halfTurn_toNat]
  omega

theorem operatorOut_halfTurn (c : Config) (eg : BitVec 10) :
    operatorOut c (ph + 512) eg = -operatorOut c ph eg := by
  have hlog : logSum c (ph + 512) eg = logSum c ph eg := by rw [logSum_eq, logSum_eq, quarterIndex_halfTurn]
  unfold operatorOut
  dsimp only
  rw [hlog, sign_halfTurn, ← BitVec.ofInt_neg]
  cases ph.getLsbD 9 with
  | false => rfl
  | true => simp

end HalfTurn

/-- The bit 10 above a ten-bit entry adds 1024. -/
theorem exprom_or_eq {x : Nat} (h : x < 1024) : x ||| 0x400 = x + 1024 := by
  rw [Nat.or_comm]
  exact (Nat.two_pow_add_eq_or_of_lt (i := 10) h 1).symm.trans (Nat.add_comm _ _)

/-- A bound on the antilog entries bounds the magnitude. -/
theorem magnitude_le_of_entries {c : Config} {m : Nat} (h : tableOf 256 (m + 1) c.exprom = true) (hm : m < 1024)
    (lg : Nat) : magnitude c lg ≤ 4 * (m + 1024) := by
  have hentry : c.exprom.getD (255 - lg % 256) 0 < m + 1 := entry_lt h m.succ_pos _
  rw [magnitude_eq, exprom_or_eq (by omega)]
  exact (Nat.div_le_self _ _).trans (by omega)

/-- Settles O55: the fold and the sign under half a turn, the greatest default entry, and the shift of a full
attenuation, which is at least 15. -/
theorem operatorShape : Obligations.OperatorShape := by
  refine ⟨fun c ph eg => operatorOut_halfTurn ph c eg, fun ph eg => ?_, fun c ph htable => ?_⟩
  · have hentries : tableOf 256 (1018 + 1) Config.mono.exprom = true := by decide +kernel
    have hmag := magnitude_le_of_entries hentries (by decide) (logSum Config.mono ph eg)
    rw [operatorOut_toInt (Config.exprom_of_wf Config.mono_wf)]
    split <;> omega
  · have hmag : magnitude c (logSum c ph 0x3FF) = 0 := by
      have hentry : c.exprom.getD (255 - logSum c ph 0x3FF % 256) 0 < 1024 := entry_lt htable (by decide) _
      have hshift : 15 ≤ logSum c ph 0x3FF / 256 := by
        have hfull : (0x3FF : BitVec 10).toNat = 1023 := rfl
        rw [logSum_eq, hfull]
        omega
      have hpow : 2 ^ 15 ≤ 2 ^ (logSum c ph 0x3FF / 256) := Nat.pow_le_pow_right (by decide) hshift
      rw [magnitude_eq, exprom_or_eq hentry]
      exact Nat.div_eq_of_lt (by omega)
    rw [operatorOut, hmag]
    simp

/-! ### The modulation input (R299) -/

/-- The slot at a scan position that is no gap, by its operator position and channel. -/
theorem slotAtPos_eq {p : Nat} {c : Fin 6} (hp : p < 32) (hgap : p % 4 ≠ 3) (hc : c.val = 3 * (p / 4 % 2) + p % 4) :
    slotAtPos p = some (slotOf ⟨p / 8, by omega⟩ c) := by
  rw [slotAtPos, slotAt_eq_some_iff, BitVec.toNat_ofNat, BitVec.toNat_ofNat, slotOf]
  dsimp only
  omega

theorem slotAtPos_gap {p : Nat} (hgap : p % 4 = 3) : slotAtPos p = none := by
  rw [slotAtPos, slotAt_none]
  apply BitVec.eq_of_toNat_eq
  rw [BitVec.toNat_ofNat]
  exact hgap

/-- The modulation sources of a position other than the first, in the routing row of the algorithm (R208). -/
theorem sources_of_pos {p : Fin 4} (hp : p.val ≠ 0) (cfg : Config) (a : BitVec 3) :
    sources cfg a (opName p) =
      match p.val with
      | 1 => (algRow cfg a).srcOp3
      | 2 => (algRow cfg a).srcOp2
      | _ => (algRow cfg a).srcOp4 := by
  obtain h | h | h : p = 1 ∨ p = 2 ∨ p = 3 := by omega
  all_goals
    subst h
    rfl

theorem modInNext_of_slot {cfg : Config} {r : Regs} {p : Fin 4} {c : Fin 6}
    (h : slotAtPos ((r.pos5 + 1) % 32) = some (slotOf p c)) :
    modInNext cfg r =
      if p.val = 0 then BitVec.ofInt 10 (feedback r c) else BitVec.ofInt 10 (modulation cfg r c (opName p)) := by
  rw [modInNext, h]
  dsimp only
  rw [posOf_slotOf, chanOf_slotOf]

theorem ofInt_feedback (r : Regs) (c : Fin 6) :
    BitVec.ofInt 10 (feedback r c) =
      if r.chan.fb[c] = 0 then 0
      else BitVec.ofInt 10
        ((r.op.opOut[slotOf 0 c].toInt + r.op.op1Prev[c].toInt) / 2 ^ (10 - r.chan.fb[c].toNat)) := by
  have hzero : r.chan.fb[c].toNat = 0 ↔ r.chan.fb[c] = 0 := BitVec.toNat_inj (y := 0)
  simp only [feedback, hzero]
  split <;> rfl

/-- Settles O56: the slot at the next scan position is that of position `p / 8` of the channel, none at a gap. -/
theorem modulationInput : Obligations.ModulationInput := by
  intro s htick hrun
  refine ⟨s.stepTo, s.step_eq, ?_⟩
  rw [State.stepTo_nxt_op htick hrun]
  dsimp only
  rw [opNext_modIn]
  have hpos : 4 * s.cur.scan.regCnt2.toNat + s.cur.scan.regCnt1.toNat = s.cur.pos5 := rfl
  rw [hpos]
  have hp : (s.cur.pos5 + 1) % 32 < 32 := Nat.mod_lt _ (by decide)
  refine ⟨fun hgap => ?_, fun c hgap hc => ?_⟩
  · rw [modInNext, slotAtPos_gap hgap]
  · have hnext := modInNext_of_slot (cfg := s.cfg) (slotAtPos_eq hp hgap hc)
    refine ⟨fun h0 => ?_, fun h0 => ?_⟩
    · rw [hnext, if_pos h0]
      exact ofInt_feedback s.cur c
    · rw [hnext, if_neg h0, modulation]
      simp only [enSrc, sources_of_pos (p := ⟨_, _⟩) h0]
      rfl

/-! ### The channel accumulator (R311 to R313) -/

theorem satS_eq (w : Nat) (v : Int) : satS w v = max (-(2 ^ (w - 1))) (min v (2 ^ (w - 1) - 1)) := by
  have htop : (0 : Int) < 2 ^ (w - 1) := by positivity
  unfold satS
  split
  · omega
  · split <;> omega

theorem chAccNext_of_first {e : FsmRec} {r : Regs} {k : Fin 24} (h : visited e r = some k) (hk : k.val < 6)
    (c : Config) :
    (chAccNext c e r).2[chanOf k] = r.acc.chAcc[chanOf k]
      ∧ (chAccNext c e r).1[chanOf k] = satS c.accBits (contribution c r k) := by
  rw [chAccNext, h]
  dsimp only
  rw [if_pos ((posOf_eq_zero_iff k).mpr hk)]
  exact ⟨setAt_get_same _ _ _, setAt_get_same _ _ _⟩

theorem chAccNext_of_later {e : FsmRec} {r : Regs} {k : Fin 24} (h : visited e r = some k) (hk : 6 ≤ k.val)
    (c : Config) :
    (chAccNext c e r).2[chanOf k] = r.acc.chOut[chanOf k]
      ∧ (chAccNext c e r).1[chanOf k] = satS c.accBits (r.acc.chAcc[chanOf k] + contribution c r k) := by
  rw [chAccNext, h]
  dsimp only
  rw [if_neg (mt (posOf_eq_zero_iff k).mp (by omega))]
  exact ⟨rfl, setAt_get_same _ _ _⟩

/-- Settles O57: the front slot is visited; the first window starts the sum and hands the last one over. -/
theorem channelAccumulates : Obligations.ChannelAccumulates := by
  intro s k hinv htick hrun hfront
  have hvisited := hinv.visited_of_front hfront
  refine ⟨s.stepTo, s.step_eq, ?_⟩
  rw [State.stepTo_nxt_acc htick hrun, accNext_chAcc_eq, accNext_chOut_eq]
  refine ⟨rfl, fun hk => ?_, fun hk => ?_⟩
  · obtain ⟨hout, hacc⟩ := chAccNext_of_first hvisited hk s.cfg
    exact ⟨hout, hacc.trans (satS_eq _ _)⟩
  · obtain ⟨hout, hacc⟩ := chAccNext_of_later hvisited hk s.cfg
    exact ⟨hout, hacc.trans (satS_eq _ _)⟩

/-! ### The mono output multiplexer (R317, R318) -/

theorem dacs_eq (g : GlobRegs) : dacs g = 2 * (g.dacData.toNat : Int) + (if g.test2c[3] then 1 else 0) - 256 := by
  have hlsb : ((bit (flag g.test2c 3) : Nat) : Int) = if g.test2c[3] then 1 else 0 := apply_ite Nat.cast _ _ _
  rw [dacs, dac9, Nat.cast_add, Nat.cast_mul, hlsb]

theorem overrides_iff (e : FsmRec) (r : Regs) :
    overrides e r = true ↔ e.dacOutSel = true ∧ r.glob.dacEn = true := by
  rw [overrides, Bool.and_eq_true]

theorem not_overrides_iff (e : FsmRec) (r : Regs) :
    overrides e r = false ↔ e.dacOutSel = false ∨ r.glob.dacEn = false := by
  rw [overrides, Bool.and_eq_false_iff]

theorem accNext_monoOut_of_mono {c : Config} (h : c.variant = .mono) (e : FsmRec) (r : Regs) :
    (accNext c e r).monoOut = monoOutNext e r := by
  rw [accNext, h]

theorem monoOutNext_of_no_load {e : FsmRec} (h : e.dacLoad = false) (r : Regs) :
    monoOutNext e r = r.acc.monoOut := by
  rw [monoOutNext, h]
  rfl

theorem monoOutNext_of_override {e : FsmRec} {r : Regs} (h : e.dacLoad = true) (ho : overrides e r = true) :
    monoOutNext e r = dacs r.glob := by
  rw [monoOutNext, if_pos h, if_pos ho]

theorem monoOutNext_of_front {e : FsmRec} {r : Regs} (h : e.dacLoad = true) (ho : overrides e r = false) {c : Fin 6}
    (hc : r.frontChan = some c) : monoOutNext e r = r.acc.chOut[c] := by
  rw [monoOutNext, if_pos h, ho, hc]
  rfl

theorem monoOutNext_of_gap {e : FsmRec} {r : Regs} (h : e.dacLoad = true) (ho : overrides e r = false)
    (hc : r.frontChan = none) : monoOutNext e r = (Config.gapSample r).toInt := by
  rw [monoOutNext, if_pos h, ho, hc]
  rfl

/-- Settles O58: the four cases of the multiplexer. -/
theorem monoOutputLoads : Obligations.MonoOutputLoads := by
  intro s hvar htick hrun
  refine ⟨s.stepTo, s.step_eq, ?_⟩
  rw [State.stepTo_nxt_acc htick hrun]
  dsimp only
  rw [accNext_monoOut_of_mono hvar, ← dacs_eq]
  refine ⟨fun hload => monoOutNext_of_no_load hload s.cur, fun hload hsel hen => ?_, fun hload hoff => ?_⟩
  · exact monoOutNext_of_override hload ((overrides_iff _ _).mpr ⟨hsel, hen⟩)
  · have hover := (not_overrides_iff (enables s.cfg s.cur) s.cur).mpr hoff
    refine ⟨fun c hc => monoOutNext_of_front hload hover hc, fun hgap => ?_⟩
    rw [monoOutNext_of_gap hload hover hgap]
    exact signedIn_toInt 9 _

/-! ### The stereo mixes and the word load (R315, R316, R319) -/

theorem accNext_mix_of_stereo {c : Config} (h : c.variant = .stereo) (e : FsmRec) (r : Regs) :
    (accNext c e r).mixL = (mixNext c e r).1 ∧ (accNext c e r).mixR = (mixNext c e r).2 := by
  rw [accNext, h]
  exact ⟨rfl, rfl⟩

theorem accNext_dacWord_of_stereo {c : Config} (h : c.variant = .stereo) (e : FsmRec) (r : Regs) :
    (accNext c e r).dacWord = if e.dacLoad then dacWordOf c.dacWordBits r.acc.mixL r.acc.mixR else r.acc.dacWord := by
  rw [accNext, h]

theorem mixSide_eq (cfg : Config) (c : Fin 6) (prev x : Int) (pan : Bool) :
    mixSide cfg c prev x pan = max (-(2 ^ (cfg.dacWordBits - 1)))
      (min ((if c = 0 then 0 else prev) + if pan then x else 0) (2 ^ (cfg.dacWordBits - 1) - 1)) := by
  have hfirst : c.val = 0 ↔ c = 0 := (Fin.ext_iff (b := 0)).symm
  simp only [mixSide, satS_eq, hfirst]

theorem mixTerm_eq (e : FsmRec) (r : Regs) (c : Fin 6) :
    mixTerm e r c =
      if e.dacOutSel = true ∧ r.glob.dacEn = true then
        (2 * (r.glob.dacData.toNat : Int) + (if r.glob.test2c[3] then 1 else 0) - 256) * 32
      else r.acc.chAcc[c] := by
  simp only [mixTerm, overrides_iff, dacs_eq]

theorem mixNext_of_first {e : FsmRec} {r : Regs} {c : Fin 6} (h : visited e r = some (slotOf 0 c)) (cfg : Config) :
    mixNext cfg e r = (mixSide cfg c r.acc.mixL (mixTerm e r c) r.chan.panL[c],
      mixSide cfg c r.acc.mixR (mixTerm e r c) r.chan.panR[c]) := by
  simp only [mixNext, h, posOf_slotOf, chanOf_slotOf]
  rfl

theorem mixNext_of_other {e : FsmRec} {r : Regs} (h : ∀ c, visited e r ≠ some (slotOf 0 c)) (cfg : Config) :
    mixNext cfg e r = (r.acc.mixL, r.acc.mixR) := by
  unfold mixNext
  split
  · rfl
  · next k hk =>
    have hpos : (posOf k).val ≠ 0 := fun h0 => h (chanOf k) (by rw [hk, ← eq_slotOf_zero h0])
    exact if_neg hpos

/-- The two halves of the DAC word. -/
theorem dacWordOf_halves (w : Nat) (l r : Int) :
    (dacWordOf w l r : Int) / 2 ^ w = l % 2 ^ w ∧ (dacWordOf w l r : Int) % 2 ^ w = r % 2 ^ w := by
  have hpow : (0 : Int) < 2 ^ w := by positivity
  have hnonneg := Int.emod_nonneg r hpow.ne'
  have hlt := Int.emod_lt_of_pos r hpow
  have hword : (dacWordOf w l r : Int) = r % 2 ^ w + 2 ^ w * (l % 2 ^ w) := by
    rw [dacWordOf, Nat.cast_add, Nat.cast_mul, wrap_cast, wrap_cast, Nat.cast_pow, Int.add_comm]
    rfl
  rw [hword]
  constructor
  · rw [Int.add_mul_ediv_left _ _ hpow.ne', Int.ediv_eq_zero_of_lt hnonneg hlt, Int.zero_add]
  · rw [Int.add_mul_emod_self_left, Int.emod_emod]

/-- Settles O59: the mixes change at the visits of the first operators only; the word load takes both. -/
theorem stereoMixes : Obligations.StereoMixes := by
  intro s hinv hvar htick hrun
  refine ⟨s.stepTo, s.step_eq, ?_⟩
  rw [State.stepTo_nxt_acc htick hrun]
  dsimp only
  obtain ⟨hmixL, hmixR⟩ := accNext_mix_of_stereo hvar (enables s.cfg s.cur) s.cur
  rw [hmixL, hmixR, accNext_dacWord_of_stereo hvar]
  refine ⟨fun c hfront => ?_, fun hother => ?_, fun hload => ?_, fun hload => ?_⟩
  · rw [mixNext_of_first (hinv.visited_of_front hfront), ← mixTerm_eq]
    exact ⟨mixSide_eq _ _ _ _ _, mixSide_eq _ _ _ _ _⟩
  · rw [← hinv.visited_eq_front] at hother
    rw [mixNext_of_other hother]
    exact ⟨rfl, rfl⟩
  · rw [if_pos hload]
    exact dacWordOf_halves _ _ _
  · rw [hload]
    rfl

end Sys2Proof.Machine
end

section
/-! The envelope generator (`spec/47_envelope_generator.md` R254 to R267): the global timer and its locks, the attack
increment, the rate and the increment code. -/

namespace Sys2Proof.Machine

/-! ### The timer and its locks (R254, R255) -/

/-- A number with a 1 among its low `n` bits has `ctz` 0 bits below the lowest of them. -/
theorem ctz_spec {n x : Nat} (h : x % 2 ^ n ≠ 0) :
    ctz n x < n ∧ x % 2 ^ ctz n x = 0 ∧ x / 2 ^ ctz n x % 2 = 1 := by
  induction n generalizing x with
  | zero => exact absurd (Nat.mod_one x) h
  | succ n ih =>
    unfold ctz
    split
    · next hodd =>
      rw [pow_zero, Nat.div_one]
      exact ⟨n.succ_pos, Nat.mod_one x, hodd⟩
    · next heven =>
      have hhalf : x = 2 * (x / 2) := by omega
      have hne : x / 2 % 2 ^ n ≠ 0 := by
        intro h0
        apply h
        rw [hhalf, Nat.pow_succ', Nat.mul_mod_mul_left, h0]
      obtain ⟨hlt, hlow, hbit⟩ := ih hne
      refine ⟨Nat.succ_lt_succ hlt, ?_, ?_⟩
      · rw [hhalf, Nat.pow_succ', Nat.mul_mod_mul_left, ← hhalf, hlow]
      · rw [Nat.pow_succ', ← Nat.div_div_eq_div_mul, hbit]

theorem egShiftLock_zero {t : BitVec 12} (h : t.toNat = 0) : egShiftLock t = 0 :=
  if_pos (BitVec.eq_of_toNat_eq h)

/-- R255: the shift lock numbers the lowest 1 of the timer from 1. -/
theorem egShiftLock_spec {t : BitVec 12} (h : t.toNat ≠ 0) :
    1 ≤ (egShiftLock t).toNat ∧ (egShiftLock t).toNat ≤ 12 ∧ t.toNat % 2 ^ ((egShiftLock t).toNat - 1) = 0
      ∧ t.toNat / 2 ^ ((egShiftLock t).toNat - 1) % 2 = 1 := by
  have hne : t ≠ 0 := fun h0 => h (congrArg BitVec.toNat h0)
  obtain ⟨hlt, hlow, hbit⟩ := ctz_spec (n := 12) (x := t.toNat) (by rwa [Nat.mod_eq_of_lt t.isLt])
  have hlock : (egShiftLock t).toNat = ctz 12 t.toNat + 1 := by
    rw [egShiftLock, if_neg hne, BitVec.toNat_ofNat, Nat.mod_eq_of_lt (by omega)]
  rw [hlock, Nat.add_sub_cancel]
  exact ⟨by omega, by omega, hlow, hbit⟩

theorem egLowLock_toNat (t : BitVec 12) : (egLowLock t).toNat = t.toNat % 4 := by
  rw [egLowLock, BitVec.extractLsb'_toNat, Nat.shiftRight_zero]

theorem egGlobalNext_of_no_clock {e : FsmRec} (h : e.egClock = false) (c : Config) (g : EgRegs) :
    egGlobalNext c e g = g := by
  rw [egGlobalNext, h]
  rfl

theorem egGlobalNext_of_step {c : Config} {e : FsmRec} {g : EgRegs} (h : e.egClock = true)
    (hq : (g.quot.toNat + 1) % c.egPrescale = c.egPrescale - 1) :
    egGlobalNext c e g =
      { g with
        quot := BitVec.ofNat 2 ((g.quot.toNat + 1) % c.egPrescale)
        timer := g.timer + 1
        shiftLock := egShiftLock (g.timer + 1)
        lowLock := egLowLock (g.timer + 1) } := by
  rw [egGlobalNext, if_pos h]
  exact if_pos hq

theorem egGlobalNext_of_no_step {c : Config} {e : FsmRec} {g : EgRegs} (h : e.egClock = true)
    (hq : (g.quot.toNat + 1) % c.egPrescale ≠ c.egPrescale - 1) :
    egGlobalNext c e g = { g with quot := BitVec.ofNat 2 ((g.quot.toNat + 1) % c.egPrescale) } := by
  rw [egGlobalNext, if_pos h]
  exact if_neg hq

theorem egGlobalNext_quot_of_clock {e : FsmRec} (h : e.egClock = true) (c : Config) (g : EgRegs) :
    (egGlobalNext c e g).quot.toNat = (g.quot.toNat + 1) % c.egPrescale % 4 := by
  by_cases hq : (g.quot.toNat + 1) % c.egPrescale = c.egPrescale - 1
  · rw [egGlobalNext_of_step h hq]
    exact BitVec.toNat_ofNat _ _
  · rw [egGlobalNext_of_no_step h hq]
    exact BitVec.toNat_ofNat _ _

/-- Settles O46: the global timer holds without its clock, and steps when the prescale count wraps. -/
theorem envelopeTimerSteps : Obligations.EnvelopeTimerSteps := by
  intro s htick hrun
  refine ⟨s.stepTo, s.step_eq, ?_⟩
  rw [State.stepTo_nxt_eg htick hrun]
  dsimp only
  obtain ⟨hquot, htimer, hshift, hlow⟩ := egNext_global s.cfg (enables s.cfg s.cur) s.cur
  rw [hquot, htimer, hshift, hlow]
  refine ⟨fun hclk => ⟨egGlobalNext_quot_of_clock hclk _ _, fun hwf => ?_⟩, fun hclk hq => ?_, fun hclk hq => ?_,
    fun hclk => ?_⟩
  · obtain ⟨hmin, hmax⟩ := Config.egPrescale_of_wf hwf
    rw [egGlobalNext_quot hmin hmax, if_pos hclk]
  · rw [egGlobalNext_of_step hclk hq]
    have hn : (s.cur.eg.timer + 1).toNat = (s.cur.eg.timer.toNat + 1) % 4096 := BitVec.toNat_add _ _
    dsimp only
    rw [← hn]
    exact ⟨rfl, egLowLock_toNat _, egShiftLock_zero, egShiftLock_spec⟩
  · rw [egGlobalNext_of_no_step hclk hq]
    exact ⟨rfl, rfl, rfl⟩
  · rw [egGlobalNext_of_no_clock hclk]
    exact ⟨rfl, rfl, rfl, rfl⟩

/-! ### The attack increment, the rate, the increment code (R259 to R267) -/

/-- R267: minus the quotient rounded up is the negated value's quotient rounded down. -/
theorem att_eq_asr (lvl k : Nat) : att lvl k = asr (-((lvl : Int) + 1) * 2 ^ k) 5 := by
  have hprod : -((lvl : Int) + 1) * 2 ^ k = -(((lvl + 1) * 2 ^ k : Nat) : Int) := by
    push_cast
    ring
  rw [att, asr, hprod]
  omega

/-- A level that is not 0 stays at least 0 under the greatest attack increment, and goes down under the least. -/
theorem att_bounds {lvl k : Nat} (hlvl : 1 ≤ lvl) (hk : k ≤ 4) :
    ((lvl + 1) * 2 ^ k + 31) / 32 ≤ lvl ∧ 0 < ((lvl + 1) * 2 ^ k + 31) / 32 := by
  have hmax : (lvl + 1) * 2 ^ k ≤ (lvl + 1) * 2 ^ 4 := Nat.mul_le_mul_left _ (Nat.pow_le_pow_right (by decide) hk)
  have hmin : 0 < (lvl + 1) * 2 ^ k := by positivity
  omega

/-- R260: inverting the two bits of `ks` takes them from 3. -/
theorem keyScale_eq (kcode : Nat) (ks : BitVec 2) : keyScale kcode ks = kcode / 2 ^ (3 - ks.toNat) := by
  have hinvert : ∀ x < 4, x ^^^ 3 = 3 - x := by decide
  rw [keyScale, hinvert _ ks.isLt, Nat.shiftRight_eq_div_pow]

theorem effectiveRate_eq (r5 ksv : Nat) : effectiveRate r5 ksv = min (2 * r5 + ksv) 63 := rfl

/-- R261: `ratemax` says that the rate is one of the two greatest. -/
theorem rateMax_effectiveRate_iff (r5 ksv : Nat) :
    rateMax (effectiveRate r5 ksv) = true ↔ 62 ≤ effectiveRate r5 ksv := by
  rw [rateMax, beq_iff_eq, effectiveRate_eq]
  omega

theorem konEvent_wires_iff (nkon okon rep : Bool) :
    ((nkon && !okon) || (okon && rep)) = true ↔
      (nkon = true ∧ ¬okon = true) ∨ (okon = true ∧ rep = true) := by
  simp only [Bool.or_eq_true, Bool.and_eq_true, Bool.not_eq_true', Bool.not_eq_true]

/-- Settles O53: the definitions of the rate and of the increment code, with their wires and shifts as propositions and
quotients. -/
theorem attackIncrement : Obligations.AttackIncrement := by
  refine ⟨fun lvl k hlvl _ _ hk => ?_, fun c e r k => ?_, fun c stepping r5 rate shiftLock lowLock => rfl⟩
  · obtain ⟨hle, hpos⟩ := att_bounds hlvl hk
    refine ⟨att_eq_asr lvl k, ?_⟩
    rw [att]
    omega
  · simp only [visitRate, konEvent_wires_iff, effectiveRate_eq, keyScale_eq]
    rfl

end Sys2Proof.Machine
end

section
/-! A visit of the envelope generator (`spec/47_envelope_generator.md` R257 to R275): the wires, the level step, the state
and the level of an `EgVisit`, one lemma per case of the rules. -/

namespace Sys2Proof.Machine

/-- A level turned upside down around 512 (R266, R278). -/
theorem wrap_invert {n : Nat} (h : n < 1024) : wrap 10 (512 - (n : Int)) = (1024 + 512 - n) % 1024 := by
  have hcast := wrap_cast 10 (512 - (n : Int))
  omega

theorem lin_eq (ssgEn : Bool) (k : Nat) :
    lin ssgEn k = ((2 ^ (k - 1) * (if ssgEn = true then 4 else 1) : Nat) : Int) := by
  rw [lin, Nat.cast_mul, Nat.cast_pow, apply_ite Nat.cast]
  rfl

namespace EgVisit

/-- The numbers of a visit are in the ranges of the level pair and of the increment code. -/
structure InRange (v : EgVisit) : Prop where
  level : v.level < 1024
  stp : v.stp ≤ 4

/-- The visit applies an attack increment (R267, R270). -/
def Attacks (v : EgVisit) : Prop :=
  v.state = .attack ∧ v.lvl ≠ 0 ∧ v.stp ≠ 0 ∧ v.ratemax = false ∧ v.nkon = true

/-- The level of a decaying slot is in the threshold band (R268). -/
def Reached (v : EgVisit) : Prop := v.state = .decay ∧ v.lvl / 16 = 2 * sl5 v.sl

/-- The envelope is off and not held up, in a slot that is not in `attack` (R274). -/
def Idles (v : EgVisit) : Prop := v.state ≠ .attack ∧ v.off = true ∧ v.holdup = false

variable {v : EgVisit}

theorem Attacks.state_eq (h : v.Attacks) : v.state = .attack := h.1

theorem Attacks.lvl_ne (h : v.Attacks) : v.lvl ≠ 0 := h.2.1

theorem Idles.off_eq (h : v.Idles) : v.off = true := h.2.1

/-! ### The wires of a visit (R257, R266, R274) -/

theorem konEvent_iff (v : EgVisit) :
    v.konEvent = true ↔ (v.nkon = true ∧ ¬v.okon = true) ∨ (v.okon = true ∧ v.rep = true) :=
  konEvent_wires_iff _ _ _

/-- Without a restart by SSG-EG, a key-on event is a rising edge. -/
theorem konEvent_eq_false_iff_of_rep (h : v.rep = false) :
    v.konEvent = false ↔ (v.nkon = true → v.okon = true) := by
  rw [← Bool.not_eq_true, konEvent_iff, h]
  simp

theorem lvl_eq (h : v.level < 1024) :
    v.lvl = if v.okon = true ∧ ¬v.nkon = true ∧ v.inv = true then (1024 + 512 - v.level) % 1024 else v.level := by
  simp only [lvl, koffEvent, wrap_invert h, Bool.and_eq_true, Bool.not_eq_true', Bool.not_eq_true, and_assoc]

theorem lvl_lt (h : v.level < 1024) : v.lvl < 1024 := by
  rw [lvl_eq h]
  split <;> omega

/-- While the key is held, and without the mirror flag, the working level is the stored one. -/
theorem lvl_of_not_inverted (h : v.okon = false ∨ v.nkon = true ∨ v.inv = false) : v.lvl = v.level := by
  have hno : ¬(v.koffEvent && v.inv) = true := by
    rw [koffEvent]
    rcases h with h | h | h <;> simp [h]
  exact if_neg hno

theorem off_iff (h : v.level < 1024) :
    v.off = true ↔ if v.ssgEn = true then 512 ≤ v.lvl else 0x3F0 ≤ v.lvl := by
  have hlt := lvl_lt h
  rw [off, egOff]
  split
  · rw [beq_iff_eq]
    omega
  · rw [beq_iff_eq]
    omega

theorem drops_iff (v : EgVisit) : v.drops = true ↔ v.konEvent = false ∧ v.Idles := by
  simp only [drops, Idles, Bool.and_eq_true, Bool.not_eq_true', bne_iff_ne, ne_eq]
  tauto

theorem drops_eq_false (h : v.konEvent = true ∨ ¬v.Idles) : v.drops = false := by
  rw [← Bool.not_eq_true, drops_iff]
  rintro ⟨hevent, hidle⟩
  rcases h with h | h
  · rw [hevent] at h
    cases h
  · exact h hidle

theorem not_idles_of_attack (h : v.state = .attack) : ¬v.Idles := fun hidle => hidle.1 h

/-! ### The level step (R269 to R272) -/

theorem levelStep_of_jump (hevent : v.konEvent = true) (hmax : v.ratemax = true) :
    v.levelStep = (.attack, 0, 0) := by
  rw [levelStep, if_pos hevent, if_pos hmax]

theorem levelStep_of_attacks (h : v.Attacks) : v.levelStep = (.attack, v.lvl, att v.lvl v.stp) := by
  obtain ⟨hstate, hlvl, hstp, hmax, hnkon⟩ := h
  unfold levelStep
  split
  · rw [if_neg (by simp [hmax]), if_pos ⟨hstate, hlvl, hstp, hnkon⟩]
  · simp only [hstate]
    rw [if_pos ⟨hstp, hmax, hnkon⟩]

/-- A key-on event below the two greatest rates leaves the level to the attack in progress. -/
theorem levelStep_of_event (hevent : v.konEvent = true) (hmax : v.ratemax = false) (h : ¬v.Attacks) :
    v.levelStep = (.attack, v.lvl, 0) := by
  have hno : ¬(v.state = .attack ∧ v.lvl ≠ 0 ∧ v.stp ≠ 0 ∧ v.nkon = true) :=
    fun ⟨hstate, hlvl, hstp, hnkon⟩ => h ⟨hstate, hlvl, hstp, hmax, hnkon⟩
  rw [levelStep, if_pos hevent, if_neg (by simp [hmax]), if_neg hno]

theorem levelStep_of_attack (hevent : v.konEvent = false) (hstate : v.state = .attack) (h : ¬v.Attacks) :
    v.levelStep = (if v.lvl = 0 then .decay else .attack, v.lvl, 0) := by
  rw [levelStep, if_neg (by simp [hevent])]
  simp only [hstate]
  split
  · rfl
  · next hlvl =>
    have hno : ¬(v.stp ≠ 0 ∧ v.ratemax = false ∧ v.nkon = true) := fun ⟨hstp, hmax, hnkon⟩ =>
      h ⟨hstate, hlvl, hstp, hmax, hnkon⟩
    rw [if_neg hno]

theorem levelStep_of_reached (hevent : v.konEvent = false) (h : v.Reached) : v.levelStep = (.sustain, v.lvl, 0) := by
  obtain ⟨hstate, hband⟩ := h
  rw [levelStep, if_neg (by simp [hevent])]
  simp only [hstate]
  rw [if_pos hband]

theorem levelStep_of_linear (hevent : v.konEvent = false) (hattack : v.state ≠ .attack) (h : ¬v.Reached) :
    v.levelStep = (v.state, v.lvl, v.linInc) := by
  rw [levelStep, if_neg (by simp [hevent])]
  cases hstate : v.state with
  | attack => exact absurd hstate hattack
  | decay => exact if_neg fun hband => h ⟨hstate, hband⟩
  | sustain => rfl
  | release => rfl

/-! ### The state a visit leaves (R269 to R274) -/

theorem nextState_of_event (hevent : v.konEvent = true) : v.nextState = .attack := by
  have hstep : v.levelStep.1 = .attack := by
    by_cases hatt : v.Attacks
    · rw [levelStep_of_attacks hatt]
    · cases hmax : v.ratemax with
      | true => rw [levelStep_of_jump hevent hmax]
      | false => rw [levelStep_of_event hevent hmax hatt]
  rw [nextState, drops_eq_false (.inl hevent), hevent, hstep]
  rfl

theorem nextState_of_release (hevent : v.konEvent = false) (h : v.Idles ∨ v.nkon = false) :
    v.nextState = .release := by
  unfold nextState
  split
  · rfl
  · next hdrops =>
    have hnkon : v.nkon = false := h.resolve_left fun hidle => hdrops (v.drops_iff.mpr ⟨hevent, hidle⟩)
    rw [hevent, hnkon]
    rfl

section Held

variable (hevent : v.konEvent = false) (hidle : ¬v.Idles) (hnkon : v.nkon = true)
include hevent hidle hnkon

theorem nextState_of_held : v.nextState = v.levelStep.1 := by
  rw [nextState, drops_eq_false (.inr hidle), hevent, hnkon]
  rfl

theorem nextState_of_attack (hstate : v.state = .attack) :
    v.nextState = if v.lvl = 0 then .decay else .attack := by
  rw [nextState_of_held hevent hidle hnkon]
  by_cases hatt : v.Attacks
  · rw [levelStep_of_attacks hatt, if_neg hatt.lvl_ne]
  · rw [levelStep_of_attack hevent hstate hatt]

theorem nextState_of_reached (h : v.Reached) : v.nextState = .sustain := by
  rw [nextState_of_held hevent hidle hnkon, levelStep_of_reached hevent h]

theorem nextState_of_linear (hattack : v.state ≠ .attack) (h : ¬v.Reached) : v.nextState = v.state := by
  rw [nextState_of_held hevent hidle hnkon, levelStep_of_linear hevent hattack h]

end Held

/-! ### The level a visit leaves (R275) -/

/-- The new level of a visit that does not drop to full attenuation. -/
theorem newLevel_of_levelStep {st : EgState} {base n : Nat} {inc : Int} (hdrops : v.drops = false)
    (hstep : v.levelStep = (st, base, inc)) (hsum : (base : Int) + inc = n) (hn : n < 1024) : v.newLevel.toNat = n := by
  have hlevel : v.newLevel = BitVec.ofInt 10 ((base : Int) + inc) := by
    rw [newLevel, hdrops, hstep]
    rfl
  rw [hlevel, hsum, BitVec.ofInt_natCast, BitVec.toNat_ofNat, Nat.mod_eq_of_lt hn]

theorem newLevel_of_jump (hevent : v.konEvent = true) (hmax : v.ratemax = true) : v.newLevel.toNat = 0 :=
  newLevel_of_levelStep (drops_eq_false (.inl hevent)) (levelStep_of_jump hevent hmax) rfl (by decide)

theorem newLevel_of_idles (hevent : v.konEvent = false) (h : v.Idles) : v.newLevel.toNat = 0x3FF := by
  have hinc : v.levelStep.2.2 = 0 := by
    obtain ⟨hattack, hoff, -⟩ := h
    by_cases hreached : v.Reached
    · rw [levelStep_of_reached hevent hreached]
    · rw [levelStep_of_linear hevent hattack hreached, linInc, hoff]
      rfl
  rw [newLevel, if_pos (v.drops_iff.mpr ⟨hevent, h⟩), hinc]
  rfl

section Level

variable (hv : v.InRange)
include hv

theorem newLevel_of_attacks (h : v.Attacks) :
    v.newLevel.toNat = v.lvl - ((v.lvl + 1) * 2 ^ v.stp + 31) / 32 := by
  obtain ⟨hle, -⟩ := att_bounds (Nat.one_le_iff_ne_zero.mpr h.lvl_ne) hv.stp
  have hlt := lvl_lt hv.level
  refine newLevel_of_levelStep (drops_eq_false (.inr (not_idles_of_attack h.state_eq))) (levelStep_of_attacks h) ?_
    (by omega)
  rw [att, Nat.cast_sub hle]
  rfl

/-- A key-on event or an attack that applies no increment keeps the working level. -/
theorem newLevel_of_attack (h : v.konEvent = true ∧ v.ratemax = false ∨ v.konEvent = false ∧ v.state = .attack)
    (hatt : ¬v.Attacks) : v.newLevel.toNat = v.lvl := by
  have hlt := lvl_lt hv.level
  rcases h with ⟨hevent, hmax⟩ | ⟨hevent, hstate⟩
  · exact newLevel_of_levelStep (drops_eq_false (.inl hevent)) (levelStep_of_event hevent hmax hatt)
      (Int.add_zero _) hlt
  · exact newLevel_of_levelStep (drops_eq_false (.inr (not_idles_of_attack hstate)))
      (levelStep_of_attack hevent hstate hatt) (Int.add_zero _) hlt

section Linear

variable (hevent : v.konEvent = false) (hattack : v.state ≠ .attack) (hidle : ¬v.Idles)
include hevent hattack hidle

theorem newLevel_of_held (h : v.off = true ∨ v.Reached ∨ v.stp = 0) : v.newLevel.toNat = v.lvl := by
  have hlt := lvl_lt hv.level
  have hdrops := drops_eq_false (.inr hidle)
  by_cases hreached : v.Reached
  · exact newLevel_of_levelStep hdrops (levelStep_of_reached hevent hreached) (Int.add_zero _) hlt
  · have hinc : v.linInc = 0 := by
      unfold linInc
      rcases h with hoff | hr | hstp
      · rw [hoff]
        rfl
      · exact absurd hr hreached
      · rw [hstp, bne_self_eq_false, Bool.and_false]
        rfl
    refine newLevel_of_levelStep hdrops (levelStep_of_linear hevent hattack hreached) ?_ hlt
    rw [hinc, Int.add_zero]

/-- The linear increment of a level that is not off does not wrap. -/
theorem newLevel_of_steps (hoff : v.off = false) (hreached : ¬v.Reached) (hstp : v.stp ≠ 0) :
    v.newLevel.toNat = v.lvl + 2 ^ (v.stp - 1) * (if v.ssgEn = true then 4 else 1) := by
  have hinc : v.linInc = lin v.ssgEn v.stp := if_pos (by simp [hoff, hstp])
  have hpow : 2 ^ (v.stp - 1) ≤ 2 ^ 3 := Nat.pow_le_pow_right (by decide) (by have := hv.stp; omega)
  have hbelow : ¬v.off = true := by simp [hoff]
  rw [off_iff hv.level] at hbelow
  refine newLevel_of_levelStep (drops_eq_false (.inr hidle)) (levelStep_of_linear hevent hattack hreached) ?_ ?_
  · rw [hinc, lin_eq]
    rfl
  · split_ifs at hbelow ⊢ <;> omega

end Linear

end Level

end EgVisit

end Sys2Proof.Machine
end

section
/-! The slot in front of the envelope generator (`spec/47_envelope_generator.md` R257 to R281): what its visit stores, from
the lemmas about `EgVisit`. -/

namespace Sys2Proof.Machine

namespace EgVisit

variable {v : EgVisit}

/-! ### The direction of the level (R281) -/

theorem nextState_of_attacks (h : v.Attacks) : v.nextState = .attack := by
  cases hevent : v.konEvent with
  | true => exact nextState_of_event hevent
  | false =>
    obtain ⟨hstate, hlvl, -, -, hnkon⟩ := h
    rw [nextState_of_attack hevent (not_idles_of_attack hstate) hnkon hstate, if_neg hlvl]

/-- A slot that is not in `attack` gets there by a key-on event only. -/
theorem nextState_ne_attack (hevent : v.konEvent = false) (hattack : v.state ≠ .attack) : v.nextState ≠ .attack := by
  by_cases hrelease : v.Idles ∨ v.nkon = false
  · rw [nextState_of_release hevent hrelease]
    decide
  · obtain ⟨hidle, hnkon⟩ := not_or.mp hrelease
    have hheld : v.nkon = true := Bool.eq_true_of_not_eq_false hnkon
    by_cases hreached : v.Reached
    · rw [nextState_of_reached hevent hidle hheld hreached]
      decide
    · rwa [nextState_of_linear hevent hidle hheld hattack hreached]

section Direction

variable (hv : v.InRange)
include hv

theorem newLevel_le_lvl (h : v.konEvent = true ∨ v.state = .attack) : v.newLevel.toNat ≤ v.lvl := by
  by_cases hatt : v.Attacks
  · rw [newLevel_of_attacks hv hatt]
    exact Nat.sub_le _ _
  · cases hevent : v.konEvent with
    | true =>
      cases hmax : v.ratemax with
      | true =>
        rw [newLevel_of_jump hevent hmax]
        exact Nat.zero_le _
      | false => exact (newLevel_of_attack hv (.inl ⟨hevent, hmax⟩) hatt).le
    | false =>
      have hstate := h.resolve_left (by simp [hevent])
      exact (newLevel_of_attack hv (.inr ⟨hevent, hstate⟩) hatt).le

theorem lvl_le_newLevel (hevent : v.konEvent = false) (hattack : v.state ≠ .attack) : v.lvl ≤ v.newLevel.toNat := by
  have hlt := lvl_lt hv.level
  by_cases hidle : v.Idles
  · rw [newLevel_of_idles hevent hidle]
    omega
  · by_cases hheld : v.off = true ∨ v.Reached ∨ v.stp = 0
    · exact (newLevel_of_held hv hevent hattack hidle hheld).ge
    · obtain ⟨hoff, hreached, hstp⟩ := not_or.mp hheld |>.imp_right not_or.mp
      rw [newLevel_of_steps hv hevent hattack hidle (Bool.eq_false_of_not_eq_true hoff) hreached hstp]
      exact Nat.le_add_right _ _

theorem newLevel_le_of_nextState_attack (hinv : v.inv = false) (h : v.nextState = .attack) :
    v.newLevel.toNat ≤ v.level := by
  rw [← lvl_of_not_inverted (.inr (.inr hinv))]
  refine newLevel_le_lvl hv (or_iff_not_imp_left.mpr fun hevent => ?_)
  by_contra hattack
  exact nextState_ne_attack (Bool.eq_false_of_not_eq_true hevent) hattack h

theorem level_le_newLevel_of_nextState (hinv : v.inv = false) (h : v.nextState ≠ .attack) :
    v.level ≤ v.newLevel.toNat := by
  have hevent : v.konEvent = false := Bool.eq_false_iff.mpr fun he => h (nextState_of_event he)
  have hatt : ¬v.Attacks := fun ha => h (nextState_of_attacks ha)
  rw [← lvl_of_not_inverted (.inr (.inr hinv))]
  by_cases hattack : v.state = .attack
  · exact (newLevel_of_attack hv (.inr ⟨hevent, hattack⟩) hatt).ge
  · exact lvl_le_newLevel hv hevent hattack

end Direction

/-! ### The SSG-EG flags (R276) and the output level (R278) -/

theorem flags_of_no_ssg (h : v.ssgEn = false) :
    v.nextDir = false ∧ v.nextPgrst = false ∧ v.nextRepeat = false ∧ v.nextHoldup = false ∧ v.nextInv = false := by
  have htop : v.top = false := by rw [top, h]; rfl
  have hdir : v.nextDir = false := by rw [nextDir, h]; rfl
  refine ⟨hdir, by rw [nextPgrst, htop]; rfl, by rw [nextRepeat, htop]; rfl, by rw [nextHoldup, h]; rfl, ?_⟩
  rw [nextInv, hdir, h, Bool.and_false]
  rfl

theorem flags_of_ssg (h : v.ssgEn = true) :
    v.nextPgrst = (v.newLevel[9] && v.ssg.extractLsb' 0 2 == 0)
      ∧ v.nextRepeat = (v.newLevel[9] && !v.ssg[0])
      ∧ v.nextHoldup = (v.nkon && (v.ssg.extractLsb' 0 3 == 5 || v.ssg.extractLsb' 0 3 == 3))
      ∧ v.nextDir = ((if v.newLevel[9] && v.ssg.extractLsb' 0 2 == 2 then !v.dir
          else if v.newLevel[9] && v.ssg.extractLsb' 0 2 == 3 then true
          else v.dir) && v.nkon)
      ∧ v.nextInv = ((v.nextDir ^^ v.ssg[2]) && v.nkon) := by
  have htop : v.top = v.newLevel[9] := by rw [top, h]; rfl
  refine ⟨by rw [nextPgrst, htop], by rw [nextRepeat, htop]; rfl, by rw [nextHoldup, h]; rfl, ?_, ?_⟩
  · rw [nextDir, h, htop, Bool.true_and, Bool.and_comm]
  · rw [nextInv, h, Bool.and_true]
    rfl

theorem outLevel_eq (v : EgVisit) :
    v.outLevel = if v.inv then (1024 + 512 - v.newLevel.toNat) % 1024 else v.newLevel.toNat := by
  rw [outLevel, wrap_invert v.newLevel.isLt]

end EgVisit

theorem egOutValue_toNat (lv amv : Nat) (tl : BitVec 7) :
    (egOutValue lv amv tl).toNat = min (lv + amv + 8 * tl.toNat) 1023 := by
  have hsat : satU 10 (lv + amv + 8 * tl.toNat) < 2 ^ 10 := satU_lt _ _
  rw [egOutValue, BitVec.toNat_ofNat, Nat.mod_eq_of_lt hsat]
  rfl

/-! ### The visit of a slot -/

theorem egVisit_inRange (c : Config) (e : FsmRec) (r : Regs) (k : Fin 24) : (egVisit c e r k).InRange :=
  ⟨r.eg.level[k].isLt, stepCode_le _ _ _ _ _ _⟩

/-- The visit takes the two greatest rates for `ratemax` (R261, R262). -/
theorem egVisit_ratemax_iff (c : Config) (e : FsmRec) (r : Regs) (k : Fin 24) :
    (egVisit c e r k).ratemax = true ↔ 62 ≤ (visitRate c e r k).2 :=
  rateMax_effectiveRate_iff _ _

theorem egNext_of_visited {e : FsmRec} {r : Regs} {k : Fin 24} (h : visited e r = some k) (c : Config) :
    (egNext c e r).level[k] = (egVisit c e r k).newLevel ∧ (egNext c e r).state[k] = (egVisit c e r k).nextState := by
  rw [egNext, h]
  exact ⟨setAt_get_same _ _ _, setAt_get_same _ _ _⟩

theorem egNext_out_of_visited {e : FsmRec} {r : Regs} {k : Fin 24} (h : visited e r = some k) (c : Config) :
    (egNext c e r).out[k] = visitEgOut c e r k := by
  rw [egNext, h]
  exact setAt_get_same _ _ _

theorem egNext_ssg_of_visited {e : FsmRec} {r : Regs} {k : Fin 24} (h : visited e r = some k) (c : Config) :
    (egNext c e r).ssgDir[k] = (egVisit c e r k).nextDir ∧ (egNext c e r).ssgPgrst[k] = (egVisit c e r k).nextPgrst
      ∧ (egNext c e r).ssgRepeat[k] = (egVisit c e r k).nextRepeat
      ∧ (egNext c e r).ssgHoldup[k] = (egVisit c e r k).nextHoldup
      ∧ (egNext c e r).ssgInv[k] = (egVisit c e r k).nextInv := by
  rw [egNext, h]
  exact ⟨setAt_get_same _ _ _, setAt_get_same _ _ _, setAt_get_same _ _ _, setAt_get_same _ _ _,
    setAt_get_same _ _ _⟩

theorem egNext_of_not_visited {e : FsmRec} {r : Regs} {k : Fin 24} (h : visited e r ≠ some k) (c : Config) :
    (egNext c e r).level[k] = r.eg.level[k] ∧ (egNext c e r).state[k] = r.eg.state[k] := by
  obtain ⟨_, _, _, _, hglobal⟩ := egGlobalNext_frame c e r.eg
  unfold egNext
  dsimp only
  rw [hglobal]
  split
  · exact ⟨rfl, rfl⟩
  · next s hs =>
    have hne : k ≠ s := fun hk => h (hk ▸ hs)
    exact ⟨setAt_get_other _ _ hne, setAt_get_other _ _ hne⟩

theorem pgNext_reset_of_visited {e : FsmRec} {r : Regs} {k : Fin 24} (h : visited e r = some k) (c : Config) :
    (pgNext c e r).reset[k] = ((r.key.konLatch[k] && !r.key.konPrev[k]) || r.eg.ssgPgrst[k]) := by
  rw [pgNext, h]
  exact setAt_get_same _ _ _

/-- The envelope visit of slot `k` in the tick that starts in the next step. -/
def State.egVisitAt (s : State) (k : Fin 24) : EgVisit := egVisit s.cfg (enables s.cfg s.cur) s.cur k

section Visit

variable (s : State) (k : Fin 24)

theorem egVisitAt_inRange : (s.egVisitAt k).InRange := egVisit_inRange _ _ _ _

theorem egVisitAt_ratemax_iff :
    (s.egVisitAt k).ratemax = true ↔ 62 ≤ (visitRate s.cfg (enables s.cfg s.cur) s.cur k).2 :=
  egVisit_ratemax_iff _ _ _ _

/-- Without SSG-EG the envelope is off from 0x3F0 on. -/
theorem egVisitAt_off_iff (hssg : s.cur.slot.ssg[k][3] = false) :
    (s.egVisitAt k).off = true ↔ 0x3F0 ≤ (s.egVisitAt k).lvl := by
  have hno : ¬(s.egVisitAt k).ssgEn = true := fun h => Bool.eq_false_iff.mp hssg h
  rw [EgVisit.off_iff (egVisitAt_inRange s k).level, if_neg hno]

variable {s k}

/-- The slot in front takes the level and the state of its visit. -/
theorem stepTo_eg_of_front (hinv : s.Inv) (htick : s.tickStarts = true) (hrun : s.cur.rst.ic = false)
    (hfront : s.cur.frontSlot = some k) :
    s.stepTo.nxt.eg.level[k] = (s.egVisitAt k).newLevel ∧ s.stepTo.nxt.eg.state[k] = (s.egVisitAt k).nextState := by
  rw [State.stepTo_nxt_eg htick hrun]
  exact egNext_of_visited (hinv.visited_of_front hfront) s.cfg

end Visit

/-! ### The obligations about a visit -/

/-- Settles O47: a rising edge is a key-on event, whose visit goes to `attack` and never raises the level. -/
theorem keyOnEdgeRestarts : Obligations.KeyOnEdgeRestarts := by
  intro s k hinv htick hrun hfront
  obtain ⟨hlevel, hstate⟩ := stepTo_eg_of_front hinv htick hrun hfront
  refine ⟨s.stepTo, s.step_eq, ?_, fun hnkon hokon => ?_⟩
  · rw [State.stepTo_nxt_pg htick hrun]
    exact pgNext_reset_of_visited (hinv.visited_of_front hfront) s.cfg
  · have hlvl : (s.egVisitAt k).lvl = s.cur.eg.level[k].toNat := EgVisit.lvl_of_not_inverted (.inl hokon)
    have hevent : (s.egVisitAt k).konEvent = true :=
      (EgVisit.konEvent_iff _).mpr (.inl ⟨hnkon, Bool.eq_false_iff.mp hokon⟩)
    rw [hlevel, hstate, ← hlvl]
    refine ⟨EgVisit.nextState_of_event hevent, fun hrate => ?_,
      EgVisit.newLevel_le_lvl (egVisitAt_inRange s k) (.inl hevent)⟩
    exact BitVec.eq_of_toNat_eq (EgVisit.newLevel_of_jump hevent ((egVisitAt_ratemax_iff s k).mpr hrate))

/-- Settles O48: a held slot without an event is at its stored level; its attack ends at level 0, its decay in the band,
which is below the level that is off. -/
theorem envelopeStateOrder : Obligations.EnvelopeStateOrder := by
  intro s k hinv htick hrun hfront hnkon hokon hrep
  obtain ⟨hlevel, hstate⟩ := stepTo_eg_of_front hinv htick hrun hfront
  have hrange := egVisitAt_inRange s k
  have hlvl : (s.egVisitAt k).lvl = s.cur.eg.level[k].toNat := EgVisit.lvl_of_not_inverted (.inr (.inl hnkon))
  have hevent : (s.egVisitAt k).konEvent = false := (EgVisit.konEvent_eq_false_iff_of_rep hrep).mpr fun _ => hokon
  have hzero : s.cur.eg.level[k] = 0 ↔ (s.egVisitAt k).lvl = 0 := by
    rw [hlvl]
    exact BitVec.toNat_inj.symm
  refine ⟨s.stepTo, s.step_eq, ?_⟩
  rw [hlevel, hstate, hzero, ne_eq, hzero]
  refine ⟨fun hattack h0 => ?_, fun hattack h0 => ?_, ?_⟩
  · rw [EgVisit.nextState_of_attack hevent (EgVisit.not_idles_of_attack hattack) hnkon hattack, if_pos h0]
    have hkept := EgVisit.newLevel_of_attack hrange (.inr ⟨hevent, hattack⟩) fun hatt => hatt.lvl_ne h0
    exact ⟨rfl, BitVec.eq_of_toNat_eq (hkept.trans h0)⟩
  · rw [EgVisit.nextState_of_attack hevent (EgVisit.not_idles_of_attack hattack) hnkon hattack, if_neg h0]
  · intro sl threshold hdecay hssg hband
    have hreached : (s.egVisitAt k).Reached := ⟨hdecay, by rw [hlvl]; exact hband⟩
    have hoff : ¬(s.egVisitAt k).off = true := by
      have hsl : sl < 16 := s.cur.slot.sl[k].isLt
      rw [egVisitAt_off_iff s k hssg, hlvl]
      simp only [threshold] at hband
      split at hband <;> omega
    have hidle : ¬(s.egVisitAt k).Idles := fun h => hoff h.off_eq
    have hattack : (s.egVisitAt k).state ≠ .attack := by
      rw [hreached.1]
      decide
    have hkept := EgVisit.newLevel_of_held hrange hevent hattack hidle (.inr (.inl hreached))
    exact ⟨EgVisit.nextState_of_reached hevent hidle hnkon hreached, BitVec.eq_of_toNat_eq (hkept.trans hlvl)⟩

/-- Settles O49: a released key, or an envelope that is off, leaves the slot in `release`. -/
theorem envelopeReleasesToIdle : Obligations.EnvelopeReleasesToIdle := by
  intro s k hinv htick hrun hfront hrep
  obtain ⟨hlevel, hstate⟩ := stepTo_eg_of_front hinv htick hrun hfront
  have hevent : (s.egVisitAt k).konEvent = false ↔ _ := EgVisit.konEvent_eq_false_iff_of_rep hrep
  refine ⟨s.stepTo, s.step_eq, ?_⟩
  rw [hlevel, hstate]
  refine ⟨fun hoff => ?_, fun hheld hssg hflag hholdup hattack hfull => ?_⟩
  · have hno : (s.egVisitAt k).konEvent = false := hevent.mpr fun hon => absurd hon (Bool.eq_false_iff.mp hoff)
    exact EgVisit.nextState_of_release hno (.inr hoff)
  · have hlvl : (s.egVisitAt k).lvl = s.cur.eg.level[k].toNat := EgVisit.lvl_of_not_inverted (.inr (.inr hflag))
    rw [← hlvl, ← egVisitAt_off_iff s k hssg] at hfull
    have hidle : (s.egVisitAt k).Idles := ⟨hattack, hfull, hholdup⟩
    have hno : (s.egVisitAt k).konEvent = false := hevent.mpr hheld
    exact ⟨EgVisit.nextState_of_release hno (.inl hidle), BitVec.eq_of_toNat_eq (EgVisit.newLevel_of_idles hno hidle)⟩

/-- R281: with the mirror flag clear, a tick out of reset that leaves a slot in `attack` does not raise its level, and
one that leaves it elsewhere does not lower it; a slot that is not visited keeps its level. -/
theorem stepTo_level_direction {s : State} {k : Fin 24} (htick : s.tickStarts = true) (hrun : s.cur.rst.ic = false)
    (hflag : s.cur.eg.ssgInv[k] = false) :
    (s.stepTo.nxt.eg.state[k] = .attack → s.stepTo.nxt.eg.level[k].toNat ≤ s.cur.eg.level[k].toNat)
      ∧ (s.stepTo.nxt.eg.state[k] ≠ .attack → s.cur.eg.level[k].toNat ≤ s.stepTo.nxt.eg.level[k].toNat) := by
  have hrange := egVisitAt_inRange s k
  rw [State.stepTo_nxt_eg htick hrun]
  by_cases hvisited : visited (enables s.cfg s.cur) s.cur = some k
  · obtain ⟨hlevel, hstate⟩ := egNext_of_visited hvisited s.cfg
    rw [hlevel, hstate]
    exact ⟨EgVisit.newLevel_le_of_nextState_attack hrange hflag, EgVisit.level_le_newLevel_of_nextState hrange hflag⟩
  · obtain ⟨hlevel, -⟩ := egNext_of_not_visited hvisited s.cfg
    rw [hlevel]
    exact ⟨fun _ => le_rfl, fun _ => le_rfl⟩

/-- Settles O50: the wires of the visit are the conditions of the statement, whose branches are then the cases of R269
to R275. -/
theorem envelopeMonotone : Obligations.EnvelopeMonotone := by
  intro s k htick hrun
  refine ⟨s.stepTo, s.step_eq, fun _ => stepTo_level_direction htick hrun, fun hinv hfront => ?_⟩
  have hrange := egVisitAt_inRange s k
  obtain ⟨hlevel, hstate⟩ := stepTo_eg_of_front hinv htick hrun hfront
  rw [hlevel, hstate]
  intro g rate stp nkon okon event ssg l lvl off drop sl threshold attacked attacks reached
  have hevent : (s.egVisitAt k).konEvent = true ↔ event := EgVisit.konEvent_iff _
  have hno : (s.egVisitAt k).konEvent = false ↔ ¬event := by rw [← hevent, Bool.not_eq_true]
  have hmax : (s.egVisitAt k).ratemax = true ↔ 62 ≤ rate.2 := egVisitAt_ratemax_iff s k
  have hbelow : (s.egVisitAt k).ratemax = false ↔ rate.2 < 62 := by rw [← Bool.not_eq_true, hmax, not_le]
  have hlvl : (s.egVisitAt k).lvl = lvl := EgVisit.lvl_eq hrange.level
  have hoff : (s.egVisitAt k).off = true ↔ off := by
    rw [EgVisit.off_iff hrange.level, hlvl]
    rfl
  have hidle : (s.egVisitAt k).Idles ↔ drop := and_congr Iff.rfl (and_congr hoff Iff.rfl)
  have hreached : (s.egVisitAt k).Reached ↔ reached := and_congr Iff.rfl (by rw [hlvl]; rfl)
  have hattacks : (s.egVisitAt k).Attacks ↔ attacks :=
    and_congr Iff.rfl (and_congr (by rw [hlvl]) (and_congr Iff.rfl (and_congr hbelow Iff.rfl)))
  constructor
  · generalize hfactor : (if ssg then 4 else 1) = factor
    split_ifs with hjump hatt hkept hdrop hheld
    · exact EgVisit.newLevel_of_jump (hevent.mpr hjump.1) (hmax.mpr hjump.2)
    · rw [EgVisit.newLevel_of_attacks hrange (hattacks.mpr hatt), hlvl]
      rfl
    · have hcase : (s.egVisitAt k).konEvent = true ∧ (s.egVisitAt k).ratemax = false
          ∨ (s.egVisitAt k).konEvent = false ∧ (s.egVisitAt k).state = .attack := by
        by_cases he : event
        · exact .inl ⟨hevent.mpr he, hbelow.mpr (not_le.mp fun hrate => hjump ⟨he, hrate⟩)⟩
        · exact .inr ⟨hno.mpr he, hkept.resolve_left he⟩
      rw [EgVisit.newLevel_of_attack hrange hcase (mt hattacks.mp hatt), hlvl]
    · exact EgVisit.newLevel_of_idles (hno.mpr (not_or.mp hkept).1) (hidle.mpr hdrop)
    · obtain ⟨he, hstate⟩ := not_or.mp hkept
      rw [← hoff, ← hreached] at hheld
      rw [EgVisit.newLevel_of_held hrange (hno.mpr he) hstate (mt hidle.mp hdrop) hheld, hlvl]
    · obtain ⟨he, hstate⟩ := not_or.mp hkept
      obtain ⟨hon, hnotReached, hstp⟩ := not_or.mp hheld |>.imp_right not_or.mp
      have hoff' : (s.egVisitAt k).off = false := Bool.eq_false_of_not_eq_true (mt hoff.mp hon)
      rw [EgVisit.newLevel_of_steps hrange (hno.mpr he) hstate (mt hidle.mp hdrop) hoff' (mt hreached.mp hnotReached)
        hstp, hlvl, ← hfactor]
      rfl
  · split_ifs with he hrelease hend hband
    · exact EgVisit.nextState_of_event (hevent.mpr he)
    · exact EgVisit.nextState_of_release (hno.mpr he) (hrelease.imp hidle.mpr Bool.eq_false_of_not_eq_true)
    all_goals
      obtain ⟨hnotIdle, hheld⟩ := not_or.mp hrelease
      have hnkon : (s.egVisitAt k).nkon = true := not_not.mp hheld
    · rw [EgVisit.nextState_of_attack (hno.mpr he) (mt hidle.mp hnotIdle) hnkon hend.1, hlvl, if_pos hend.2]
    · exact EgVisit.nextState_of_reached (hno.mpr he) (mt hidle.mp hnotIdle) hnkon (hreached.mpr hband)
    · by_cases hattack : g.state[k] = .attack
      · have hlvl0 : lvl ≠ 0 := fun h0 => hend ⟨hattack, h0⟩
        rw [EgVisit.nextState_of_attack (hno.mpr he) (mt hidle.mp hnotIdle) hnkon hattack, hlvl, if_neg hlvl0, hattack]
      · exact EgVisit.nextState_of_linear (hno.mpr he) (mt hidle.mp hnotIdle) hnkon hattack (mt hreached.mp hband)

/-- Settles O51: the flags of the visit, by its SSG-EG enable. -/
theorem ssgFlagsFollowLevel : Obligations.SsgFlagsFollowLevel := by
  intro s k hinv htick hrun hfront
  obtain ⟨hlevel, -⟩ := stepTo_eg_of_front hinv htick hrun hfront
  obtain ⟨hdir, hpgrst, hrepeat, hholdup, hflag⟩ := egNext_ssg_of_visited (hinv.visited_of_front hfront) s.cfg
  refine ⟨s.stepTo, s.step_eq, ?_⟩
  dsimp only
  rw [hlevel, State.stepTo_nxt_eg htick hrun, hdir, hpgrst, hrepeat, hholdup, hflag]
  exact ⟨EgVisit.flags_of_no_ssg (v := s.egVisitAt k), EgVisit.flags_of_ssg (v := s.egVisitAt k)⟩

/-- Settles O52: the mirrored level, the tremolo and the total level, saturated. -/
theorem envelopeOutputSaturates : Obligations.EnvelopeOutputSaturates := by
  intro s k hinv htick hrun hfront
  obtain ⟨hlevel, -⟩ := stepTo_eg_of_front hinv htick hrun hfront
  refine ⟨s.stepTo, s.step_eq, ?_⟩
  dsimp only
  rw [hlevel, State.stepTo_nxt_eg htick hrun, egNext_out_of_visited (hinv.visited_of_front hfront), visitEgOut,
    egOutValue_toNat, EgVisit.outLevel_eq]
  rfl

end Sys2Proof.Machine
end
